-- ==== Sys2Proof/Word.lean ====
section
/-! DEFINITION. The word types of the LT4: bytes, 16-bit and 32-bit words, and the number of a trunk. -/

namespace Sys2Proof

/-- A byte of the line area, or an octet of a frame (00 section 6.1, R10). -/
abbrev Byte := BitVec 8

/-- A 16-bit field: the completion count, the session number, a recent-list position (03 section 3.2). -/
abbrev Half := BitVec 16

/-- A 32-bit word: a register of the window, a system address, device time, a tally (R151, R165, R149). -/
abbrev Word := BitVec 32

/-- Trunks are numbered 0 to 3 (00 section 6.3). -/
abbrev Trunk := Fin 4

end Sys2Proof
end

