-- ==== Sys2Proof/Syntax.lean ====
section
/-! DEFINITION. The commands of the block: one constructor for each row of spec/opcode_table.json. The table gives
its rows no bits; an operand stands where the rule of a row speaks of a value, a trunk, an envelope or a level. -/

namespace Sys2Proof

/-- The level of a trunk line (R1). -/
inductive Level where
  | low
  | high
  deriving DecidableEq, Repr

/-- The commands and events that the LT4 takes, each whole and indivisible (95_what_each_step_holds). -/
inductive Instr where
  -- host writes to COMMAND
  | start
  | pause
  | resume
  | standby
  | stop
  | reload
  | reset
  | unknownCommand (code : BitVec 4)
  -- host writes to the other registers
  | sweep (value : Word)
  | intCause (value : Word)
  | intEnable (value : Word)
  | registerWrite (offset : Nat) (value : Word)
  -- pins, and the two timers that no trunk owns
  | powerOnReset
  | syncEdge
  | windowClose
  | sweepTimerExpiry
  -- the sweeper's accesses
  | word0ReadDone
  | envelopeReadDone
  | word1ReadDone
  | claimWriteDone
  -- the memory port and the writers
  | portGrant
  | accessComplete
  | stateWriteDone
  | countWriteDone
  | roundResultDone
  | giveBackDone
  | startReadsDone
  | startUnitDone
  | reloadReadsDone
  | sweepEndUnitDone
  | accessError
  | accessTimeout
  | abandonedAccessEnd
  -- the session controller
  | settlingEnd
  | resumeResultsDone
  | stoppingEnd
  | stopFinalUnitDone
  -- the line engines
  | holdExpiry (t : Trunk)
  | tailReached (t : Trunk)
  | replySettled (t : Trunk)
  | replyWindowClose (t : Trunk)
  | lost (t : Trunk)
  | shape (t : Trunk)
  | leadMark (t : Trunk)
  | malformed (t : Trunk)
  | goodFrame (t : Trunk)
  | answerPulseStart (t : Trunk)
  | answerPulseEnd (t : Trunk)
  | foreignFrameEnded (t : Trunk)
  | stuck (t : Trunk)
  | stuckRecovery (t : Trunk)
  | timingTakesEffect (t : Trunk)
  | trunkOff (t : Trunk)
  -- the send scheduler and the repeat table
  | restEnd (index : Nat)
  | expiry (index : Nat)
  | dueTime (index : Nat)
  | roundJoin (t : Trunk)
  -- the wire
  | recognisedEdge (t : Trunk) (level : Level)
  | markOrGapLengthElapsed (t : Trunk)
  deriving DecidableEq, Repr

end Sys2Proof
end

