-- ==== Sys2Proof/WellFormed.lean ====
section
/-! DEFINITION. Which commands the outside world can send: the operands' ranges. -/

namespace Sys2Proof

/-- The offsets of the register window (R151). -/
def registerOffsets : List Nat := [0x00, 0x04, 0x08, 0x0C, 0x10, 0x14, 0x18, 0x1C]

/-- Codes 1 to 7 are commands; 0 and 8 to 15 are unknown (R152). -/
def isCommandCode (code : BitVec 4) : Bool := decide (1 ≤ code.toNat ∧ code.toNat ≤ 7)

/-- A command is well formed when its register offset is one of the window's, its unknown code is none of the
seven commands, and its envelope index lies below the largest N (R49, R151, R152). -/
def Instr.wellFormed : Instr → Bool
  | .unknownCommand code => !isCommandCode code
  | .registerWrite offset _ => registerOffsets.contains offset
  | .restEnd i => decide (i < 1024)
  | .expiry i => decide (i < 1024)
  | .dueTime i => decide (i < 1024)
  | .start => true
  | .pause => true
  | .resume => true
  | .standby => true
  | .stop => true
  | .reload => true
  | .reset => true
  | .sweep _ => true
  | .intCause _ => true
  | .intEnable _ => true
  | .powerOnReset => true
  | .syncEdge => true
  | .windowClose => true
  | .sweepTimerExpiry => true
  | .word0ReadDone => true
  | .envelopeReadDone => true
  | .word1ReadDone => true
  | .claimWriteDone => true
  | .portGrant => true
  | .accessComplete => true
  | .stateWriteDone => true
  | .countWriteDone => true
  | .roundResultDone => true
  | .giveBackDone => true
  | .startReadsDone => true
  | .startUnitDone => true
  | .reloadReadsDone => true
  | .sweepEndUnitDone => true
  | .accessError => true
  | .accessTimeout => true
  | .abandonedAccessEnd => true
  | .settlingEnd => true
  | .resumeResultsDone => true
  | .stoppingEnd => true
  | .stopFinalUnitDone => true
  | .holdExpiry _ => true
  | .tailReached _ => true
  | .replySettled _ => true
  | .replyWindowClose _ => true
  | .lost _ => true
  | .shape _ => true
  | .leadMark _ => true
  | .malformed _ => true
  | .goodFrame _ => true
  | .answerPulseStart _ => true
  | .answerPulseEnd _ => true
  | .foreignFrameEnded _ => true
  | .stuck _ => true
  | .stuckRecovery _ => true
  | .timingTakesEffect _ => true
  | .trunkOff _ => true
  | .roundJoin _ => true
  | .recognisedEdge _ _ => true
  | .markOrGapLengthElapsed _ => true

end Sys2Proof
end

