-- ==== Sys2Proof/Decode.lean ====
section
/-! DEFINITION. The block has no instruction decoder: spec/opcode_table.json gives none of its 59 rows any bits,
so no word spells a command (log 26). -/

namespace Sys2Proof

/-- The command that a word of `nbits` bits spells by the table's bits: none, because no row has bits. -/
def decodeTableWord (_nbits _w : Nat) : Option Instr := none

end Sys2Proof
end

