-- ==== Sys2Proof/Config.lean ====
section
/-! DEFINITION. What the part fixes once, and the free values that the manual leaves open. -/

namespace Sys2Proof.Config

/-- IDENT: family code 0x4C54 above revision 0x0301 (R151). -/
def ident : Word := 0x4C540301#32

/-- Layout version that START accepts (R51). -/
def layoutVersion : Nat := 3

/-- Places of one pending list (R82). -/
def listPlaces : Nat := 16

/-- Places of the repeat table (R107). -/
def repeatPlaces : Nat := 8

/-- Places of the receive list (R129). -/
def receivePlaces : Nat := 32

/-- Places of the delivery queue (R128). -/
def deliveryPlaces : Nat := 6

/-- Completions that raise COMPLETE as a batch (R145). -/
def batchLimit : Nat := 8

/-- The port's timeout: 1 ms from the issue of an access (R178), in the model's microseconds (log 4). -/
def accessTimeoutMicros : Nat := 1000

/-- Microseconds in one millisecond of device time (R165). -/
def microsPerMilli : Nat := 1000

/-- What a byte of system memory reads as that nothing has written: DESIGN CHOICE, unsafe (log 8). -/
def unlistedByte : Byte := 0#8

/-- FREE VALUE (R180, R181): whether byte `k` of the bytes that the `m`-th failed or abandoned write covers has
taken its new value. The manual says that such a write may have changed all, some or none of its bytes, so
nothing is known of it (log 10). Safe: a statement holds whatever it is. -/
opaque byteLands : Nat → Nat → Bool

/-- FREE VALUE (R102 against R169): whether the part keeps the trunk-off processing of a trunk that goes off in STANDBY
back until the session leaves STANDBY. By R102 every entry finishes at the report; by the prose of R169 nothing finishes
in STANDBY. The manual ranks neither, so nothing is known of it (log 33). Safe: a statement holds whatever it is. -/
opaque trunkOffWaits : Bool

end Sys2Proof.Config
end

