-- ==== Sys2Proof/Machine/State.lean ====
section
/-! DEFINITION. The state of the LT4 as plain data: one structure for each block of 00 section 3, the line area's
memory, the queue of commands, and the state after power-on reset. INVENTORY.md lists every field with its rule. -/

namespace Sys2Proof.Machine

/-! ### Four of a kind: what each trunk has -/

/-- One thing for each of the four trunks. -/
structure Four (α : Type) where
  t0 : α
  t1 : α
  t2 : α
  t3 : α
  deriving DecidableEq, Repr

/-- The four things that `f` gives. -/
def Four.of {α : Type} (f : Trunk → α) : Four α := ⟨f 0, f 1, f 2, f 3⟩

/-- The thing of trunk `t`. -/
def Four.get {α : Type} (q : Four α) (t : Trunk) : α :=
  match t with
  | 0 => q.t0
  | 1 => q.t1
  | 2 => q.t2
  | 3 => q.t3

/-- The four with trunk `t`'s replaced. -/
def Four.set {α : Type} (q : Four α) (t : Trunk) (x : α) : Four α :=
  Four.of (fun u => if u = t then x else q.get u)

/-- The same thing for each trunk. -/
def Four.all {α : Type} (x : α) : Four α := ⟨x, x, x, x⟩

/-! ### Names and codes -/

/-- Session states (R155; codes of STATUS in 09 section 9.1). -/
inductive SessionState where
  | unset
  | running
  | paused
  | settling
  | standby
  | stopping
  | faulted
  deriving DecidableEq, Repr

/-- The seven commands (R152). -/
inductive Command where
  | start
  | pause
  | resume
  | standby
  | stop
  | reload
  | reset
  deriving DecidableEq, Repr

/-- Result of a command in the read-back (09 section 9.1). -/
inductive CommandResult where
  | none
  | inProgress
  | done
  | refused
  | cutByFault
  deriving DecidableEq, Repr

/-- Refusal reason in the read-back (09 section 9.1). -/
inductive RefusalReason where
  | none
  | wrongState
  | busy
  | areaInvalid
  | baseMisaligned
  | unknownCommand
  deriving DecidableEq, Repr

/-- Fault kind in STATUS (R178, R179). -/
inductive FaultKind where
  | none
  | readError
  | writeError
  | timeout
  deriving DecidableEq, Repr

/-- Mode of a trunk (R25). -/
inductive Mode where
  | off
  | listen
  | active
  deriving DecidableEq, Repr

/-- Class of a frame (01 section 1.4). -/
inductive FrameClass where
  | urgent
  | normal
  | bulk
  deriving DecidableEq, Repr

/-- Outcome of one attempt (R37; codes of byte 41 in 03 section 3.8). -/
inductive AttemptOutcome where
  | accepted
  | sent
  | busy
  | noReply
  | shape
  | lost
  deriving DecidableEq, Repr

/-- Codes of byte 40 (R61). -/
inductive ResultCode where
  | accepted
  | sent
  | busyExhausted
  | noReplyExhausted
  | shapeExhausted
  | expired
  | cancelled
  | trunkOff
  | stopped
  | badCheck
  | badField
  | wrongSide
  | selfAddressed
  | repeatFull
  deriving DecidableEq, Repr

/-! ### The line engines (chapter 2) -/

/-- Phases of SENDING (R24). -/
inductive Phase where
  | lead
  | symbols
  | tail
  deriving DecidableEq, Repr

/-- Engine states (R24). -/
inductive EngineState where
  | off
  | idle
  | holding
  | sending (p : Phase)
  | replyWait
  | receiving
  | answering
  | stuck
  deriving DecidableEq, Repr

/-- What the engine does on the wire, with the microseconds of it (R4, R13, R20): nothing; pulling low for a mark
of its own frame; waiting for the rise after its mark; holding a gap (timed from the recognised rise); pulling low
for an answer pulse; done with the answer pulse of this window. -/
inductive Pulse where
  | quiet
  | mark (micros : Nat)
  | rising (micros : Nat)
  | gap
  | answer (micros : Nat)
  | answered
  deriving DecidableEq, Repr

/-- What the classification of the reply has seen (R14): no reply is awaited; no low yet that began 1U to 3U after
the tail rise; that low is in progress; it rose after so many microseconds. -/
inductive ReplySeen where
  | unset
  | waiting
  | low
  | rose (micros : Nat)
  deriving DecidableEq, Repr

/-- Answer order of the receive director (R40). -/
inductive AnswerOrder where
  | silent
  | accept
  | busy
  deriving DecidableEq, Repr

/-- Timing values of a trunk: unit n (U = 10 us × n), filter time in us, hold base in U (R2, R3, R21). -/
structure Timing where
  unit : Nat
  filter : Nat
  hold : Nat
  deriving DecidableEq, Repr

/-- The armed entry as the engine keeps it; its hold time in U (R28). -/
structure Armed where
  index : Nat
  cls : FrameClass
  retry : Bool
  holdUnits : Nat
  deriving DecidableEq, Repr

/-- The attempt record (R30). Its phase is held in the engine state, and its symbol count is 32 + 8L. -/
structure Attempt where
  index : Nat
  cls : FrameClass
  dest : Nat
  channel : Nat
  length : Nat
  replyWanted : Bool
  payload : List Byte
  source : Nat
  toggle : Bool
  o1 : Byte
  o2 : Byte
  o3 : Byte
  check : Byte
  position : Nat
  deriving DecidableEq, Repr

/-- The symbol assembly buffer (R39). -/
structure Buffer where
  own : Bool
  leadTaken : Bool
  count : Nat
  octets : List Byte
  bits : List Bool
  length : Option Nat
  sum : Byte
  deriving DecidableEq, Repr

/-- The empty buffer; `own` marks whose frame it follows. -/
def Buffer.cleared (own : Bool) : Buffer :=
  { own := own, leadTaken := false, count := 0, octets := [], bits := [], length := none, sum := 0#8 }

/-- A line engine: the record of R23, and the line as its filter and its transmitter see it. Times are in us. -/
structure Engine where
  mode : Mode
  state : EngineState
  timing : Timing
  pendingTiming : Option Timing
  pendingOff : Bool
  holdClock : Nat
  lowTime : Nat
  recoveryTime : Nat
  armed : Option Armed
  attempt : Option Attempt
  buffer : Buffer
  answer : AnswerOrder
  /-- the recognised level (R3) -/
  level : Level
  /-- time since the last recognised edge, or since entry from OFF -/
  edgeTime : Nat
  /-- another station pulls the line low (R1) -/
  stationsLow : Bool
  /-- time for which the level on the wire has differed from the recognised level (R3) -/
  rawTime : Nat
  pulse : Pulse
  /-- the low interval in progress is a candidate lead mark (R5, R26, R34) -/
  candidate : Bool
  /-- time since the tail rise while a reply window is open (R13) -/
  window : Option Nat
  reply : ReplySeen
  deriving DecidableEq, Repr

/-- Default timing: n = 10, filter 0 us, H = 6U (R2, R23). -/
def Timing.default : Timing := { unit := 10, filter := 0, hold := 6 }

/-- The engine record after power-on reset (R23), its line released and high (R1; log 12). -/
def Engine.reset : Engine :=
  { mode := .off, state := .off, timing := Timing.default, pendingTiming := none, pendingOff := false
    holdClock := 0, lowTime := 0, recoveryTime := 0, armed := none, attempt := none
    buffer := Buffer.cleared false, answer := .silent
    level := .high, edgeTime := 0, stationsLow := false, rawTime := 0
    pulse := .quiet, candidate := false, window := none, reply := .unset }

/-! ### The send scheduler and the repeat table (chapters 5 and 6) -/

/-- The fields copied from a send envelope at its claim (R57, R83). -/
structure SendCopy where
  trunk : Trunk
  cls : FrameClass
  dest : Nat
  channel : Nat
  length : Nat
  retries : Nat
  replyWanted : Bool
  /-- the expiry in ms, when present -/
  expiry : Option Nat
  payload : List Byte
  deriving DecidableEq, Repr

/-- Condition of a pending entry (R85); a rest carries its busy backoff and the device time it began (R83, R93). -/
inductive Condition where
  | waiting
  | armed
  | inFlight
  | resting (backoff : Nat) (began : Word)
  deriving DecidableEq, Repr

/-- End mark of a pending entry (R83). -/
inductive EndMark where
  | none
  | cancelled
  | expired
  deriving DecidableEq, Repr

/-- A pending entry (R83). -/
structure Entry where
  index : Nat
  copy : SendCopy
  round : Bool
  seq : Word
  attempts : Nat
  losses : Nat
  failures : Nat
  last : Option AttemptOutcome
  retry : Bool
  condition : Condition
  /-- device time of joining; the expiry counts from it when the copy has one -/
  joined : Word
  endMark : EndMark
  /-- moment of expiry kept as completion stamp for an entry marked in STANDBY (R97) -/
  stamp : Option Word
  deriving DecidableEq, Repr

/-- Round state of a repeat entry (R109); a due entry keeps its due since (R107). -/
inductive RoundState where
  | between
  | due (since : Word)
  | inRound
  deriving DecidableEq, Repr

/-- A repeat entry (R107). -/
structure RepeatEntry where
  index : Nat
  copy : SendCopy
  period : Nat
  nextDue : Word
  round : RoundState
  count : Nat
  overruns : Nat
  last : Option AttemptOutcome
  attempts : Nat
  losses : Nat
  /-- end request CANCELLED (R115) -/
  endRequest : Bool
  deriving DecidableEq, Repr

/-- The send scheduler with its repeat table, toggle tables and settings (R82, R100, R103, R107). -/
structure Scheduler where
  lists : Four (List Entry)
  repeats : List RepeatEntry
  seq : Word
  toggles : Four (BitVec 63)
  windowMode : Four Bool
  backoff : Four Nat
  /-- the trunk has had its STOP processing (R104; log 28) -/
  stopDone : Four Bool
  /-- the trunk has had its trunk-off processing, and no claim has been decided for it since (R84, R102; log 35) -/
  offDone : Four Bool
  /-- the trunk went off in STANDBY, and its trunk-off processing is kept back (R102, R169; log 33) -/
  offOwed : Four Bool
  deriving DecidableEq, Repr

/-- The scheduler after power-on reset and after RESET (R103, R106, R118). -/
def Scheduler.reset : Scheduler :=
  { lists := Four.all [], repeats := [], seq := 0#32, toggles := Four.all 0#63
    windowMode := Four.all false, backoff := Four.all 1, stopDone := Four.all false, offDone := Four.all false
    offOwed := Four.all false }

/-! ### The table sweeper (chapter 4) -/

/-- What a claim write in flight claims (R74, R75). -/
inductive Claim where
  | send (copy : SendCopy)
  | repeating (copy : SendCopy) (period : Nat)
  | receive (mask : Byte)
  deriving DecidableEq, Repr

/-- The access that the handling of an index waits for (R70). -/
inductive SweepStage where
  | word0
  | envelope
  | word1
  | claim (c : Claim)
  deriving DecidableEq, Repr

/-- A sweep in progress: where its send-side pass began, the index in hand, its stage, and whether the sweep is
cut after this index (R69, R70, R79). -/
structure Sweep where
  start : Nat
  index : Nat
  stage : SweepStage
  cut : Bool
  deriving DecidableEq, Repr

/-- A reserved place (R65, R74). -/
inductive Place where
  | list (t : Trunk)
  | repeatTable
  deriving DecidableEq, Repr

/-- The sweeper's record (R65). The timer counts ms toward `target`, the period that its sweep start took (R68). -/
structure Sweeper where
  period : Nat
  timer : Nat
  target : Nat
  timerRuns : Bool
  sweep : Option Sweep
  again : Bool
  cursor : Nat
  held : BitVec 1024
  count : Word
  reservation : Option Place
  deriving DecidableEq, Repr

/-- The sweeper after power-on reset and after RESET (R65, R81). -/
def Sweeper.reset : Sweeper :=
  { period := 1000, timer := 0, target := 1000, timerRuns := false, sweep := none, again := false
    cursor := 0, held := 0#1024, count := 0#32, reservation := none }

/-! ### The receive director (chapter 7) -/

/-- A listen table (R119). -/
structure Listen where
  own : Nat
  groups : Four (Option Nat)
  acceptBroadcast : Bool
  deriving DecidableEq, Repr

/-- The values a duplicate-table entry holds (R123). -/
structure Duplicate where
  toggle : Bool
  length : Nat
  check : Byte
  deriving DecidableEq, Repr

/-- An entry of the receive list (R129). -/
structure Offered where
  index : Nat
  mask : Byte
  deriving DecidableEq, Repr

/-- A frame of the delivery queue (R128). -/
structure QueuedFrame where
  trunk : Trunk
  source : Nat
  dest : Nat
  channel : Nat
  cls : FrameClass
  length : Nat
  payload : List Byte
  stamp : Word
  broadcast : Bool
  group : Bool
  heldStandby : Bool
  clash : Bool
  slot : Option Nat
  deriving DecidableEq, Repr

/-- The receive director (R119, R123, R128, R129). -/
structure Director where
  listen : Four Listen
  dups : Four (Vector (Option Duplicate) 63)
  receiveList : List Offered
  queue : List QueuedFrame
  deriving DecidableEq, Repr

/-- The listen table after power-on reset and after RESET (R119). -/
def Listen.reset : Listen := { own := 0, groups := Four.all none, acceptBroadcast := false }

/-- A duplicate table with every entry invalid (R123). -/
def noDuplicates : Vector (Option Duplicate) 63 := Vector.replicate 63 none

/-- The director after power-on reset and after RESET (R138). -/
def Director.reset : Director :=
  { listen := Four.all Listen.reset, dups := Four.all noDuplicates, receiveList := [], queue := [] }

/-! ### Results, tallies and the header writer (chapter 8) -/

/-- The eight tallies of a trunk, in the order of 03 section 3.10. -/
structure Tally where
  sent : Word
  losses : Word
  shapes : Word
  stuck : Word
  delivered : Word
  duplicates : Word
  refused : Word
  malformed : Word
  deriving DecidableEq, Repr

/-- All eight tallies 0 (R150). -/
def Tally.zero : Tally :=
  { sent := 0, losses := 0, shapes := 0, stuck := 0, delivered := 0, duplicates := 0, refused := 0, malformed := 0 }

/-- What bytes 40 to 51 of a send envelope carry (R59). -/
structure SendResult where
  outcome : ResultCode
  last : Option AttemptOutcome
  attempts : Nat
  losses : Nat
  stamp : Word
  repeats : Nat
  overruns : Nat
  deriving DecidableEq, Repr

/-- An entry of the completion queue (R140). -/
inductive Work where
  | done (index : Nat) (r : SendResult)
  | rejected (index : Nat) (reason : ResultCode)
  | round (index : Nat) (r : SendResult)
  deriving DecidableEq, Repr

/-- The result writer's record (R139). -/
structure ResultWriter where
  queue : List Work
  countCopy : Half
  written : Half
  reported : Half
  recent : Vector Half 8
  tallies : Four Tally
  deriving DecidableEq, Repr

/-- The result writer after power-on reset, after RESET and at START (R139). -/
def ResultWriter.reset : ResultWriter :=
  { queue := [], countCopy := 0, written := 0, reported := 0, recent := Vector.replicate 8 0xFFFF#16
    tallies := Four.all Tally.zero }

/-- A unit of the header writer (R148); a sweep-end unit carries the device time and sweep count of its report. -/
inductive HeaderUnit where
  | startReads
  | reloadReads
  | startUnit
  | sweepEnd (time count : Word)
  | finalUnit (time count : Word)
  deriving DecidableEq, Repr

/-! ### The memory port (chapter 11) -/

/-- The three kinds of access (R175). -/
inductive AccessOp where
  | read (words : Nat)
  | writeBurst (bytes : List Byte)
  | byteWrite (bytes : List Byte)
  deriving DecidableEq, Repr

/-- What the completion of an access brings about: nothing beyond itself (`part`), or the event of that name. -/
inductive Role where
  | part
  | word0
  | envelope
  | word1
  | claim
  | stateWrite
  | countWrite
  | roundResult
  | giveBack
  | startReads
  | startUnit
  | reloadReads
  | sweepEnd
  | finalUnit
  deriving DecidableEq, Repr

/-- One access: its role, the address of its first byte, and what it does. -/
structure Access where
  role : Role
  addr : Word
  op : AccessOp
  deriving DecidableEq, Repr

/-- Whose unit it is, and which (R176). -/
inductive UnitKind where
  | completion (index : Nat) (number : Half)
  | roundResult (index : Nat)
  | filled (index : Nat) (number : Half)
  | giveBack (index : Nat)
  | header (u : HeaderUnit)
  | sweeper
  deriving DecidableEq, Repr

/-- The unit in hand: the access on the bus and its time since issue in us, the accesses to come, and the bytes
its reads have returned so far. -/
structure PortUnit where
  kind : UnitKind
  access : Access
  timer : Nat
  rest : List Access
  data : List Byte
  deriving DecidableEq, Repr

/-- An access abandoned by RESET that is still on the bus (R181). -/
structure Abandoned where
  access : Access
  timer : Nat
  deriving DecidableEq, Repr

/-- The memory port (R177, R181). -/
structure Port where
  unit : Option PortUnit
  abandoned : Option Abandoned
  deriving DecidableEq, Repr

/-! ### Session controller, register window, standby logic (chapters 9 and 10) -/

/-- The COMMAND read-back (R152). -/
structure ReadBack where
  code : BitVec 4
  result : CommandResult
  reason : RefusalReason
  deriving DecidableEq, Repr

/-- The stored registers of the window (R151); causes and enables hold their six named bits. -/
structure Registers where
  areaBase : Word
  intCause : BitVec 6
  intEnable : BitVec 6
  faultInfo : Word
  readBack : ReadBack
  deriving DecidableEq, Repr

/-- The session controller (R153 to R166). -/
structure Session where
  state : SessionState
  inProgress : Option Command
  /-- entries that step 1 of the resume processing still owes; `none` outside that processing (R172) -/
  resumeOwed : Option Nat
  faultKind : FaultKind
  deviceTime : Word
  micros : Nat
  number : Half
  base : Word
  n : Nat
  f : Nat
  windowLength : Nat
  /-- time remaining of the open sync window, in us -/
  window : Option Nat
  /-- the modes of the accepted records, until the START unit completes (R157) -/
  startModes : Four Mode
  deriving DecidableEq, Repr

/-- The standby logic (R170). -/
structure Standby where
  wakeEnable : Four Bool
  wake : Bool
  deriving DecidableEq, Repr

/-! ### Inputs that have no row -/

/-- What the outside can do that spec/opcode_table.json has no row for (log 7): the host's writes into system
memory, another station pulling a line low or releasing it; and a command sent at a chosen moment. -/
inductive Outside where
  | memoryWrite (addr : Word) (bytes : List Byte)
  | pull (t : Trunk)
  | letGo (t : Trunk)
  | send (c : Instr)
  deriving DecidableEq, Repr

/-! ### The whole -/

/-- The state of the part, of the system memory it shares with the host, and of the queues of its inputs. -/
structure State where
  /-- commands that wait, first in, first out -/
  pending : List Instr
  /-- inputs without a row, each with the us to wait for it after the one before (log 7) -/
  outside : List (Nat × Outside)
  /-- system memory: strictly rising addresses, no entry equal to `Config.unlistedByte` -/
  memory : List Host.Cell
  regs : Registers
  session : Session
  port : Port
  sweeper : Sweeper
  sched : Scheduler
  engines : Four Engine
  director : Director
  results : ResultWriter
  /-- the header writer's units, waiting or granted, oldest first (R148) -/
  header : List HeaderUnit
  standby : Standby
  /-- the model's own: how many failed or abandoned writes have used the free value `Config.byteLands` -/
  free : Nat
  deriving DecidableEq, Repr

/-- No command of the LT4 stops the model with a fault: a memory fault is the session state FAULTED (R179), a next
state. This type has no constructor, so no step can answer one. -/
inductive Fault where
  deriving DecidableEq, Repr

/-- Why the model refuses a command. Safe: the model says nothing about what follows. -/
inductive Refusal where
  /-- raised by an arm of `exec` whose command has no meaning yet; no arm does so. Safe. -/
  | notModelled (mnemonic : String)
  deriving DecidableEq, Repr

/-- The register window after power-on reset (R151). -/
def Registers.reset : Registers :=
  { areaBase := 0, intCause := 0, intEnable := 0, faultInfo := 0
    readBack := { code := 0, result := .none, reason := .none } }

/-- The session controller after power-on reset (R163, R164; base, N, F, startModes: log 12). -/
def Session.reset : Session :=
  { state := .unset, inProgress := none, resumeOwed := none, faultKind := .none
    deviceTime := 0, micros := 0, number := 0, base := 0, n := 0, f := 0
    windowLength := 1, window := none, startModes := Four.all .off }

/-- The machine right after power-on reset (R164). -/
def State.reset : State :=
  { pending := [], outside := [], memory := []
    regs := Registers.reset, session := Session.reset, port := { unit := none, abandoned := none }
    sweeper := Sweeper.reset, sched := Scheduler.reset, engines := Four.all Engine.reset
    director := Director.reset, results := ResultWriter.reset, header := []
    standby := { wakeEnable := Four.all false, wake := false }, free := 0 }

/-! ### One update for each part of the state -/

/-- The state with another command queue. -/
def State.setPending (s : State) (x : List Instr) : State := { s with pending := x }
/-- The state with other inputs to come. -/
def State.setOutside (s : State) (x : List (Nat × Outside)) : State := { s with outside := x }
/-- The state with another memory. -/
def State.setMemory (s : State) (x : List Host.Cell) : State := { s with memory := x }
/-- The state with another register window. -/
def State.setRegs (s : State) (x : Registers) : State := { s with regs := x }
/-- The state with another session controller. -/
def State.setSession (s : State) (x : Session) : State := { s with session := x }
/-- The state with another memory port. -/
def State.setPort (s : State) (x : Port) : State := { s with port := x }
/-- The state with another sweeper. -/
def State.setSweeper (s : State) (x : Sweeper) : State := { s with sweeper := x }
/-- The state with another scheduler. -/
def State.setSched (s : State) (x : Scheduler) : State := { s with sched := x }
/-- The state with other engines. -/
def State.setEngines (s : State) (x : Four Engine) : State := { s with engines := x }
/-- The state with another receive director. -/
def State.setDirector (s : State) (x : Director) : State := { s with director := x }
/-- The state with another result writer. -/
def State.setResults (s : State) (x : ResultWriter) : State := { s with results := x }
/-- The state with other header units. -/
def State.setHeader (s : State) (x : List HeaderUnit) : State := { s with header := x }
/-- The state with another standby logic. -/
def State.setStandby (s : State) (x : Standby) : State := { s with standby := x }
/-- The state with another count of free values used. -/
def State.setFree (s : State) (x : Nat) : State := { s with free := x }

end Sys2Proof.Machine
end

