-- ==== Sys2Proof/Machine/Ops.lean ====
section
/-! DEFINITION. The named operations that every block uses: system memory, the engine and list of a trunk, the held
map, device time, and small operations on lists. -/

namespace Sys2Proof.Machine

/-! ### System memory (03; log 8) -/

/-- System memory: addresses and bytes, in the canonical form `Memory.wf`. -/
abbrev Memory := List Host.Cell

/-- Canonical form: strictly rising addresses below 2^32, and no entry equal to what an unlisted address reads as. -/
abbrev Memory.wf (m : Memory) : Prop :=
  m.Pairwise (fun x y => x.1 < y.1) ∧ ∀ c ∈ m, c.2 ≠ Config.unlistedByte ∧ c.1 < 4294967296

/-- The byte at an address. -/
def Memory.read : Memory → Nat → Byte
  | [], _ => Config.unlistedByte
  | (b, v) :: m, a => if a = b then v else Memory.read m a

/-- An entry put before memory, unless it says what an unlisted address reads as. -/
def Memory.consUnlessDefault (a : Nat) (v : Byte) (m : Memory) : Memory :=
  if v = Config.unlistedByte then m else (a, v) :: m

/-- Memory with one byte written. -/
def Memory.write : Memory → Nat → Byte → Memory
  | [], a, v => Memory.consUnlessDefault a v []
  | (b, w) :: m, a, v =>
    if a < b then Memory.consUnlessDefault a v ((b, w) :: m)
    else if a = b then Memory.consUnlessDefault a v m
    else (b, w) :: Memory.write m a v

/-- `n` bytes from an address on; addresses are 32-bit (R175). -/
def Memory.readBytes (m : Memory) : Word → Nat → List Byte
  | _, 0 => []
  | a, n + 1 => Memory.read m a.toNat :: Memory.readBytes m (a + 1) n

/-- Memory with consecutive bytes written. -/
def Memory.writeBytes : Memory → Word → List Byte → Memory
  | m, _, [] => m
  | m, a, v :: vs => Memory.writeBytes (Memory.write m a.toNat v) (a + 1) vs

/-- Memory after a write that failed or was abandoned: each byte has its new value or its old one, as the free
value of the `count`-th such write says (R180, R181; log 10). -/
def Memory.writeBytesPerhaps (count : Nat) : Memory → Word → Nat → List Byte → Memory
  | m, _, _, [] => m
  | m, a, k, v :: vs =>
    Memory.writeBytesPerhaps count (if Config.byteLands count k then Memory.write m a.toNat v else m) (a + 1) (k + 1) vs

/-! ### Addresses of the line area (R49, R175) -/

/-- Address of a header field at offset `o` of the session's area. -/
def State.headerAddr (s : State) (o : Nat) : Word := s.session.base + BitVec.ofNat 32 o

/-- Address of byte `b` of envelope `i`. -/
def State.envelopeAddr (s : State) (i b : Nat) : Word := s.session.base + BitVec.ofNat 32 (256 + 64 * i + b)

/-! ### Bytes of multi-byte fields, little-endian (00 section 6.1) -/

/-- The two bytes of a 16-bit field. -/
def halfBytes (h : Half) : List Byte := [h.extractLsb' 0 8, h.extractLsb' 8 8]

/-- The four bytes of a 32-bit field. -/
def wordBytes (w : Word) : List Byte :=
  [w.extractLsb' 0 8, w.extractLsb' 8 8, w.extractLsb' 16 8, w.extractLsb' 24 8]

/-- Byte `k` of bytes read. -/
def byteAt (bs : List Byte) (k : Nat) : Byte := bs.getD k 0#8

/-- The number in a 16-bit field at `k`. -/
def halfAt (bs : List Byte) (k : Nat) : Nat := (byteAt bs k).toNat + 256 * (byteAt bs (k + 1)).toNat

/-- The number in a 32-bit field at `k`. -/
def wordAt (bs : List Byte) (k : Nat) : Nat := halfAt bs k + 65536 * halfAt bs (k + 2)

/-! ### What each trunk has -/

/-- The engine of a trunk. -/
def State.engine (s : State) (t : Trunk) : Engine := s.engines.get t

/-- The state with a trunk's engine replaced. -/
def State.setEngine (s : State) (t : Trunk) (e : Engine) : State := s.setEngines (s.engines.set t e)

/-- The pending list of a trunk (R82). -/
def State.list (s : State) (t : Trunk) : List Entry := s.sched.lists.get t

/-- The state with a trunk's pending list replaced. -/
def State.setList (s : State) (t : Trunk) (l : List Entry) : State :=
  s.setSched { s.sched with lists := s.sched.lists.set t l }

/-- The entry of an index in a list replaced by what `f` makes of it. -/
def mapIndex (i : Nat) (f : Entry → Entry) (l : List Entry) : List Entry :=
  l.map (fun e => if e.index = i then f e else e)

/-- The state with an entry of a trunk's list changed. -/
def State.updateEntry (s : State) (t : Trunk) (i : Nat) (f : Entry → Entry) : State :=
  s.setList t (mapIndex i f (s.list t))

/-- The entry of an index in a trunk's list. -/
def State.findEntry (s : State) (t : Trunk) (i : Nat) : Option Entry :=
  (s.list t).find? (fun e => e.index == i)

/-- The trunks in order. -/
def trunks : List Trunk := [0, 1, 2, 3]

/-- The trunk whose list holds an index; an index stands in at most one list (R82). -/
def State.trunkOf (s : State) (i : Nat) : Option Trunk :=
  trunks.find? (fun t => (s.findEntry t i).isSome)

/-! ### The held map (R77) -/

/-- Whether an index is held. -/
def State.isHeld (s : State) (i : Nat) : Bool := s.sweeper.held.getLsbD i

/-- The held map's bit of an index. -/
def heldBit (i : Nat) : BitVec 1024 := 1#1024 <<< i

/-- The held bit of an index set. -/
def State.hold (s : State) (i : Nat) : State :=
  s.setSweeper { s.sweeper with held := s.sweeper.held ||| heldBit i }

/-- The held bit of an index cleared. -/
def State.unhold (s : State) (i : Nat) : State :=
  s.setSweeper { s.sweeper with held := s.sweeper.held &&& ~~~(heldBit i) }

/-! ### Device time (R165) -/

/-- Device time. -/
def State.now (s : State) : Word := s.session.deviceTime

/-- Milliseconds from a moment to device time, measured across the wrap (R95). -/
def State.elapsed (s : State) (since : Word) : Nat := (s.now - since).toNat

/-- Device time runs in these session states (R165). -/
def Session.timeRuns (c : Session) : Bool :=
  match c.state with
  | .running | .paused | .settling | .standby | .stopping => true
  | .unset | .faulted => false

/-- A moment is reached: it lies at device time or less than 2^31 ms before it. -/
def State.reached (s : State) (moment : Word) : Bool := decide (s.elapsed moment < 2147483648)

/-- The state with the session state changed. -/
def State.enterSession (s : State) (x : SessionState) : State :=
  s.setSession { s.session with state := x }

/-! ### Counts that saturate, and ordered insertion -/

/-- One more, saturating at 255 (R83). -/
def sat255 (n : Nat) : Nat := min 255 (n + 1)

/-- One more, saturating at 65535 (R107). -/
def sat65535 (n : Nat) : Nat := min 65535 (n + 1)

/-- `x` put before the first element that does not come before it. -/
def insertBefore {α : Type} (before : α → α → Bool) (x : α) : List α → List α
  | [] => [x]
  | y :: ys => if before y x then y :: insertBefore before x ys else x :: y :: ys

/-- A list in the order of `before`; elements neither of which comes before the other keep their order. -/
def orderBy {α : Type} (before : α → α → Bool) : List α → List α
  | [] => []
  | x :: xs => insertBefore before x (orderBy before xs)

/-- Two lists joined into one: at each place the head of the second list if it comes before the head of the first,
else the head of the first. Each list keeps its own order. `fuel` is at least the two lengths together. -/
def mergeHeads {α : Type} (before : α → α → Bool) : Nat → List α → List α → List α
  | 0, xs, ys => xs ++ ys
  | _ + 1, [], ys => ys
  | _ + 1, xs, [] => xs
  | n + 1, x :: xs, y :: ys =>
    if before y x then y :: mergeHeads before n (x :: xs) ys else x :: mergeHeads before n xs (y :: ys)

end Sys2Proof.Machine
end

