-- ==== Sys2Proof/Machine/Operands.lean ====
section
/-! DEFINITION. Every layout of the manual: codes, the header and its trunk records, send and receive envelopes,
frames, and the fields the commands read from them (chapters 1 and 3). -/

namespace Sys2Proof.Machine

/-! ### Codes -/

/-- Code of a session state in STATUS (09 section 9.1). -/
def SessionState.code : SessionState → Nat
  | .unset => 0
  | .running => 1
  | .paused => 2
  | .settling => 3
  | .standby => 4
  | .stopping => 5
  | .faulted => 6

/-- Code of a command (09 section 9.1). -/
def Command.code : Command → BitVec 4
  | .start => 1
  | .pause => 2
  | .resume => 3
  | .standby => 4
  | .stop => 5
  | .reload => 6
  | .reset => 7

/-- Code of a result (09 section 9.1). -/
def CommandResult.code : CommandResult → Nat
  | .none => 0
  | .inProgress => 1
  | .done => 2
  | .refused => 3
  | .cutByFault => 4

/-- Code of a refusal reason (09 section 9.1). -/
def RefusalReason.code : RefusalReason → Nat
  | .none => 0
  | .wrongState => 1
  | .busy => 2
  | .areaInvalid => 3
  | .baseMisaligned => 4
  | .unknownCommand => 5

/-- Code of a fault kind (09 section 9.1). -/
def FaultKind.code : FaultKind → Nat
  | .none => 0
  | .readError => 1
  | .writeError => 2
  | .timeout => 3

/-- Code of a mode (03 section 3.3; the same in STATUS). -/
def Mode.code : Mode → Nat
  | .off => 0
  | .listen => 1
  | .active => 2

/-- The mode of a mode byte; 3 to 255 are refused before this is asked (R52). -/
def Mode.ofByte (n : Nat) : Mode := if n = 1 then .listen else if n = 2 then .active else .off

/-- Code of a class (01 section 1.4). -/
def FrameClass.code : FrameClass → Nat
  | .urgent => 0
  | .normal => 1
  | .bulk => 2

/-- The class of a code; 3 is malformed on a line and BAD_FIELD in an envelope before this is asked (R9, R57). -/
def FrameClass.ofCode (n : Nat) : FrameClass := if n = 0 then .urgent else if n = 1 then .normal else .bulk

/-- Code of an attempt outcome; 0 is none (03 section 3.8). -/
def AttemptOutcome.code : Option AttemptOutcome → Nat
  | none => 0
  | some .accepted => 1
  | some .sent => 2
  | some .busy => 3
  | some .noReply => 4
  | some .shape => 5
  | some .lost => 6

/-- Code of byte 40 (03 section 3.8). -/
def ResultCode.code : ResultCode → Nat
  | .accepted => 1
  | .sent => 2
  | .busyExhausted => 3
  | .noReplyExhausted => 4
  | .shapeExhausted => 5
  | .expired => 6
  | .cancelled => 7
  | .trunkOff => 8
  | .stopped => 9
  | .badCheck => 16
  | .badField => 17
  | .wrongSide => 18
  | .selfAddressed => 19
  | .repeatFull => 21

/-- The outcomes that count as a round (R112). -/
def ResultCode.endsRound : ResultCode → Bool
  | .accepted | .sent | .busyExhausted | .noReplyExhausted | .shapeExhausted | .expired => true
  | .cancelled | .trunkOff | .stopped | .badCheck | .badField | .wrongSide | .selfAddressed | .repeatFull => false

/-! State bytes of an envelope (03 section 3.5). -/

/-- POSTED. -/
def posted : Byte := 1
/-- OFFERED. -/
def offered : Byte := 2
/-- HELD. -/
def heldState : Byte := 3
/-- DONE. -/
def doneState : Byte := 4
/-- FILLED. -/
def filledState : Byte := 5
/-- REJECTED. -/
def rejectedState : Byte := 6

/-- The cancel request in byte 1 of word 0 (R54). -/
def cancelRequested (bs : List Byte) : Bool := (byteAt bs 1).getLsbD 0

/-! ### The header (03 sections 3.2 and 3.3) -/

/-- What an accepted trunk record gives its owners (R52). -/
structure TrunkRecord where
  mode : Mode
  timing : Timing
  listen : Listen
  windowMode : Bool
  wakeEnable : Bool
  backoff : Nat
  deriving DecidableEq, Repr

/-- What START and RELOAD both take from the header (R50). -/
structure Settings where
  period : Nat
  windowLength : Nat
  records : Four TrunkRecord
  deriving DecidableEq, Repr

/-- The header as read: bytes that begin at header offset `first`. -/
structure HeaderBytes where
  first : Nat
  bytes : List Byte
  deriving DecidableEq, Repr

/-- The header's byte at an offset. -/
def HeaderBytes.byte (h : HeaderBytes) (o : Nat) : Nat := (byteAt h.bytes (o - h.first)).toNat

/-- The header's 16-bit field at an offset. -/
def HeaderBytes.half (h : HeaderBytes) (o : Nat) : Nat := halfAt h.bytes (o - h.first)

/-- The header's 32-bit field at an offset. -/
def HeaderBytes.word (h : HeaderBytes) (o : Nat) : Nat := wordAt h.bytes (o - h.first)

/-- Offset of a trunk's record (03 section 3.2). -/
def recordOffset (t : Trunk) : Nat := 0x20 + 16 * t.val

/-- A group byte is an address or unused, and not the own address (R52). -/
def groupByteValid (own g : Nat) : Bool := (decide (g ≤ 62) || g == 255) && g != own

/-- The checks of one trunk record, each with the offset it is reported at, in ascending order (R51, R52). -/
def recordChecks (h : HeaderBytes) (t : Trunk) : List (Nat × Bool) :=
  let r := recordOffset t
  let own := h.byte (r + 4)
  [ (r, decide (h.byte r ≤ 2)),
    (r + 1, decide (2 ≤ h.byte (r + 1))),
    (r + 2, decide (2 * h.byte (r + 2) < 5 * h.byte (r + 1))),
    (r + 3, decide (5 ≤ h.byte (r + 3) ∧ h.byte (r + 3) ≤ 15)),
    (r + 4, decide (own ≤ 62)),
    (r + 5, groupByteValid own (h.byte (r + 5))),
    (r + 6, groupByteValid own (h.byte (r + 6))),
    (r + 7, groupByteValid own (h.byte (r + 7))),
    (r + 8, groupByteValid own (h.byte (r + 8))),
    (r + 9, decide (h.byte (r + 9) < 8)),
    (r + 10, decide (1 ≤ h.half (r + 10) ∧ h.half (r + 10) ≤ 1000)) ]

/-- The checks that START and RELOAD share, from offset 0x008 on (R51). -/
def commonChecks (h : HeaderBytes) : List (Nat × Bool) :=
  [ (0x008, decide (1 ≤ h.half 0x008 ∧ h.half 0x008 ≤ 1000)),
    (0x00A, decide (1 ≤ h.half 0x00A)) ]
    ++ recordChecks h 0 ++ recordChecks h 1 ++ recordChecks h 2 ++ recordChecks h 3

/-- The checks of START for an area at `base` (R49, R51). -/
def startChecks (base : Word) (h : HeaderBytes) : List (Nat × Bool) :=
  let n := h.half 0x004
  [ (0x000, h.word 0x000 == Config.layoutVersion),
    (0x004, decide (16 ≤ n ∧ n ≤ 1024 ∧ n % 16 = 0 ∧ base.toNat + 256 + 64 * n ≤ 4294967296)),
    (0x006, decide (1 ≤ h.half 0x006 ∧ h.half 0x006 ≤ n - 1)) ]
    ++ commonChecks h

/-- The offset of the first field that fails its check (R51). -/
def firstBad (checks : List (Nat × Bool)) : Option Nat := (checks.find? (fun c => !c.2)).map (fun c => c.1)

/-- A group slot: 255 is unused (R119). -/
def groupSlot (g : Nat) : Option Nat := if g = 255 then none else some g

/-- A trunk record that has passed its checks (03 section 3.3). -/
def trunkRecord (h : HeaderBytes) (t : Trunk) : TrunkRecord :=
  let r := recordOffset t
  let flags := byteAt h.bytes (r + 9 - h.first)
  { mode := Mode.ofByte (h.byte r)
    timing := { unit := h.byte (r + 1), filter := h.byte (r + 2), hold := h.byte (r + 3) }
    listen :=
      { own := h.byte (r + 4)
        groups := ⟨groupSlot (h.byte (r + 5)), groupSlot (h.byte (r + 6)), groupSlot (h.byte (r + 7)),
          groupSlot (h.byte (r + 8))⟩
        acceptBroadcast := flags.getLsbD 0 }
    windowMode := flags.getLsbD 1
    wakeEnable := flags.getLsbD 2
    backoff := h.half (r + 10) }

/-- The settings of a header that has passed its checks (R50). -/
def settings (h : HeaderBytes) : Settings :=
  { period := h.half 0x008, windowLength := h.half 0x00A, records := Four.of (trunkRecord h) }

/-! ### The send envelope (03 section 3.6) -/

/-- The exclusive-OR of bytes 4 to 10 and 12 to 39 (R58). -/
def checkByte (bs : List Byte) : Byte :=
  (((bs.drop 4).take 7) ++ ((bs.drop 12).take 28)).foldl (fun x y => x ^^^ y) 0#8

/-- The fields of a send envelope as read (03 section 3.6). -/
structure SendFields where
  trunk : Nat
  cls : Nat
  dest : Nat
  channel : Nat
  length : Nat
  retries : Nat
  options : Byte
  period : Nat
  expiry : Nat
  payload : List Byte
  deriving DecidableEq, Repr

/-- Bytes 4 to 39 of a send envelope. -/
def sendFields (bs : List Byte) : SendFields :=
  { trunk := (byteAt bs 4).toNat, cls := (byteAt bs 5).toNat, dest := (byteAt bs 6).toNat
    channel := (byteAt bs 7).toNat, length := (byteAt bs 8).toNat, retries := (byteAt bs 9).toNat
    options := byteAt bs 10, period := halfAt bs 12, expiry := halfAt bs 14
    payload := (bs.drop 16).take 24 }

/-- Options bit 0: reply wanted. -/
def SendFields.replyWanted (e : SendFields) : Bool := e.options.getLsbD 0

/-- Options bit 1: repeat. -/
def SendFields.repeats (e : SendFields) : Bool := e.options.getLsbD 1

/-- Options bit 2: expiry present. -/
def SendFields.hasExpiry (e : SendFields) : Bool := e.options.getLsbD 2

/-- The fields are valid (R57). -/
def SendFields.valid (e : SendFields) : Bool :=
  decide (e.trunk ≤ 3) && decide (e.cls ≤ 2) && decide (e.dest ≤ 63) && decide (e.channel ≤ 7)
    && decide (e.length ≤ 24) && decide (e.retries ≤ 15) && decide (e.options.toNat < 8)
    && !(e.dest == 63 && e.replyWanted)
    && (!e.repeats || decide (10 ≤ e.period ∧ e.period ≤ 60000))
    && (!e.hasExpiry || e.expiry != 0)

/-- The trunk of a valid envelope. -/
def SendFields.trunkNo (e : SendFields) : Trunk := Fin.ofNat 4 e.trunk

/-- The fields a claim copies (R57). -/
def SendFields.copy (e : SendFields) : SendCopy :=
  { trunk := e.trunkNo, cls := FrameClass.ofCode e.cls, dest := e.dest, channel := e.channel
    length := e.length, retries := e.retries, replyWanted := e.replyWanted
    expiry := if e.hasExpiry then some e.expiry else none
    payload := e.payload.take e.length }

/-- Bytes 40 to 51 of a send envelope (R59). -/
def SendResult.bytes (r : SendResult) : List Byte :=
  [BitVec.ofNat 8 r.outcome.code, BitVec.ofNat 8 (AttemptOutcome.code r.last), BitVec.ofNat 8 r.attempts,
    BitVec.ofNat 8 r.losses] ++ wordBytes r.stamp ++ halfBytes (BitVec.ofNat 16 r.repeats)
    ++ halfBytes (BitVec.ofNat 16 r.overruns)

/-! ### The receive envelope (03 section 3.7) -/

/-- A trunk mask is valid when it names a trunk and has none of bits 4 to 7 (R60). -/
def maskValid (m : Byte) : Bool := m != 0#8 && decide (m.toNat < 16)

/-- Flags of a delivery, byte 11 (R60). -/
def QueuedFrame.flags (q : QueuedFrame) : Byte :=
  BitVec.ofNat 8 (q.broadcast.toNat + 2 * q.group.toNat + 4 * q.heldStandby.toNat + 8 * q.clash.toNat)

/-- The payload with zeros up to 24 bytes (R60). -/
def padded (payload : List Byte) : List Byte := (payload ++ List.replicate 24 0#8).take 24

/-- Bytes 5 to 7 of a filled envelope (R60, R176). -/
def QueuedFrame.firstBytes (q : QueuedFrame) : List Byte :=
  [BitVec.ofNat 8 q.trunk.val, BitVec.ofNat 8 q.source, BitVec.ofNat 8 q.dest]

/-- Bytes 8 to 39 of a filled envelope (R60, R176). -/
def QueuedFrame.laterBytes (q : QueuedFrame) : List Byte :=
  [BitVec.ofNat 8 q.channel, BitVec.ofNat 8 q.cls.code, BitVec.ofNat 8 q.length, q.flags]
    ++ wordBytes q.stamp ++ padded q.payload

/-! ### Frames (01 section 1.4) -/

/-- First header octet (R10). -/
def octet1 (cls : FrameClass) (dest : Nat) : Byte := BitVec.ofNat 8 (cls.code * 64 + dest)

/-- Second header octet (R10). -/
def octet2 (source : Nat) (toggle replyWanted : Bool) : Byte :=
  BitVec.ofNat 8 (source * 4 + toggle.toNat * 2 + replyWanted.toNat)

/-- Third header octet (R10). -/
def octet3 (length channel : Nat) : Byte := BitVec.ofNat 8 (length * 8 + channel)

/-- Sum of octets modulo 256. -/
def octetSum (bs : List Byte) : Byte := bs.foldl (fun x y => x + y) 0#8

/-- The check octet of a frame's other octets (R11). -/
def checkOctet (bs : List Byte) : Byte := 255#8 - octetSum bs

/-- Symbols of a frame of length L (R8). -/
def symbolCount (length : Nat) : Nat := 32 + 8 * length

/-- The octets of an attempt in line order (R10). -/
def Attempt.octets (a : Attempt) : List Byte := [a.o1, a.o2, a.o3] ++ a.payload ++ [a.check]

/-- Symbol `p` of an attempt, most significant first; true is a 1 (R10). -/
def Attempt.symbol (a : Attempt) (p : Nat) : Bool := (byteAt a.octets (p / 8)).getLsbD (7 - p % 8)

/-- Worst-case duration of a frame in U (R22). -/
def worstCaseUnits (length : Nat) (replyWanted : Bool) : Nat := 141 + 32 * length + 9 * replyWanted.toNat

/-- Hold time in U (R21). -/
def holdUnits (hold : Nat) (cls : FrameClass) (retry : Bool) : Nat := hold + 2 * cls.code + 4 * retry.toNat

/-- A good frame as it is handed to the receive director (R12). -/
structure GoodFrame where
  cls : FrameClass
  dest : Nat
  source : Nat
  toggle : Bool
  replyWanted : Bool
  length : Nat
  channel : Nat
  payload : List Byte
  check : Byte
  deriving DecidableEq, Repr

/-- The frame whose octets, check octet included, are given in line order (R10). -/
def frameOfOctets (bs : List Byte) : GoodFrame :=
  let o1 := (byteAt bs 0).toNat
  let o2 := (byteAt bs 1).toNat
  let o3 := (byteAt bs 2).toNat
  { cls := FrameClass.ofCode (o1 / 64), dest := o1 % 64, source := o2 / 4
    toggle := decide (o2 / 2 % 2 = 1), replyWanted := decide (o2 % 2 = 1)
    length := o3 / 8, channel := o3 % 8
    payload := (bs.drop 3).take (o3 / 8), check := byteAt bs (3 + o3 / 8) }

/-- The octet whose eight symbols, most significant first, are given (R10). -/
def octetOfBits (bits : List Bool) : Byte := BitVec.ofNat 8 (bits.foldl (fun n b => 2 * n + b.toNat) 0)

end Sys2Proof.Machine
end

