-- ==== Sys2Proof/Machine/Flags.lean ====
section
/-! DEFINITION. Causes and IRQ, the COMPLETE rule, the tallies, the read-back, STATUS, and what a host read of each
register answers (chapters 8 and 9). -/

namespace Sys2Proof.Machine

/-! ### Interrupt causes (R146, R147) -/

/-- The six causes. -/
inductive Cause where
  | complete
  | starved
  | trunk
  | command
  | fault
  | wake
  deriving DecidableEq, Repr

/-- Position of a cause in INT_CAUSE and INT_ENABLE (09 section 9.1). -/
def Cause.bit : Cause → Nat
  | .complete => 0
  | .starved => 1
  | .trunk => 2
  | .command => 3
  | .fault => 4
  | .wake => 5

/-- A cause raised; one already set stays set (R146). -/
def State.raise (s : State) (c : Cause) : State :=
  s.setRegs { s.regs with intCause := s.regs.intCause ||| (1#6 <<< c.bit) }

/-- Whether a cause is set. -/
def State.causeSet (s : State) (c : Cause) : Bool := s.regs.intCause.getLsbD c.bit

/-- The IRQ line: asserted while the AND of causes and enables is not 0 (R147). -/
def State.irq (s : State) : Bool := (s.regs.intCause &&& s.regs.intEnable) != 0#6

/-! ### COMPLETE (R145) -/

/-- COMPLETE raised and the reported count set to the written count. -/
def State.raiseComplete (s : State) : State :=
  (s.setResults { s.results with reported := s.results.written }).raise .complete

/-- The COMPLETE check. -/
def State.completeCheck (s : State) : State :=
  if s.results.written = s.results.reported then s else s.raiseComplete

/-- A count write completes: the written count takes its value, and a difference of 8 raises COMPLETE. -/
def State.countWritten (s : State) (c : Half) : State :=
  let s1 := s.setResults { s.results with written := c }
  if (c - s.results.reported).toNat = Config.batchLimit then s1.raiseComplete else s1

/-! ### Tallies (R149) -/

/-- A trunk's tallies changed. -/
def State.tally (s : State) (t : Trunk) (f : Tally → Tally) : State :=
  s.setResults { s.results with tallies := s.results.tallies.set t (f (s.results.tallies.get t)) }

/-- One more frame sent. -/
def Tally.addSent (c : Tally) : Tally := { c with sent := c.sent + 1 }
/-- One more arbitration loss. -/
def Tally.addLoss (c : Tally) : Tally := { c with losses := c.losses + 1 }
/-- One more shape error as transmitter. -/
def Tally.addShape (c : Tally) : Tally := { c with shapes := c.shapes + 1 }
/-- One more stuck event. -/
def Tally.addStuck (c : Tally) : Tally := { c with stuck := c.stuck + 1 }
/-- One more frame delivered. -/
def Tally.addDelivered (c : Tally) : Tally := { c with delivered := c.delivered + 1 }
/-- One more duplicate suppressed. -/
def Tally.addDuplicate (c : Tally) : Tally := { c with duplicates := c.duplicates + 1 }
/-- One more frame refused. -/
def Tally.addRefused (c : Tally) : Tally := { c with refused := c.refused + 1 }
/-- One more malformed frame seen. -/
def Tally.addMalformed (c : Tally) : Tally := { c with malformed := c.malformed + 1 }

/-- The 32 bytes of a trunk's part of the tally block (03 section 3.10). -/
def Tally.bytes (c : Tally) : List Byte :=
  wordBytes c.sent ++ wordBytes c.losses ++ wordBytes c.shapes ++ wordBytes c.stuck
    ++ wordBytes c.delivered ++ wordBytes c.duplicates ++ wordBytes c.refused ++ wordBytes c.malformed

/-! ### The COMMAND read-back (R152) -/

/-- The read-back shows a code, a result and a reason. -/
def State.show (s : State) (code : BitVec 4) (result : CommandResult) (reason : RefusalReason) : State :=
  s.setRegs { s.regs with readBack := { code := code, result := result, reason := reason } }

/-- A command is refused: the read-back shows it, and COMMAND is raised (R152, R155). -/
def State.refuse (s : State) (code : BitVec 4) (reason : RefusalReason) : State :=
  (s.show code .refused reason).raise .command

/-- A command in progress begins: the read-back shows it. -/
def State.beginCommand (s : State) (c : Command) : State :=
  (s.setSession { s.session with inProgress := some c }).show c.code .inProgress .none

/-- An accepted command is done: the read-back shows it, and COMMAND is raised (R152). -/
def State.finishCommand (s : State) (c : Command) : State :=
  ((s.setSession { s.session with inProgress := none }).show c.code .done .none).raise .command

/-! ### STATUS and the answers to host reads (R151, R153) -/

/-- Trunk state of an engine in STATUS (R24). -/
def Engine.statusCode (e : Engine) : Nat :=
  match e.state with
  | .off => 0
  | .stuck => 3
  | .idle | .holding | .sending _ | .replyWait | .receiving | .answering => e.mode.code

/-- STATUS as assembled at a read (R153). -/
def State.status (s : State) : Word :=
  BitVec.ofNat 32
    (s.session.state.code + 0x100 * (s.engine 0).statusCode + 0x400 * (s.engine 1).statusCode
      + 0x1000 * (s.engine 2).statusCode + 0x4000 * (s.engine 3).statusCode
      + 0x10000 * s.director.queue.length + 0x100000 * s.session.faultKind.code)

/-- The COMMAND register as read (09 section 9.1). -/
def ReadBack.word (r : ReadBack) : Word :=
  BitVec.ofNat 32 (r.code.toNat + 0x10 * r.result.code + 0x100 * r.reason.code)

/-- What a host read of the register at an offset answers; a read changes nothing (R151). At an offset where the
window has no register the answer is 0 (log 24). -/
def State.readRegister (s : State) (offset : Nat) : Word :=
  match offset with
  | 0x00 => Config.ident
  | 0x04 => s.regs.readBack.word
  | 0x08 => s.status
  | 0x0C => s.regs.areaBase
  | 0x10 => 0#32
  | 0x14 => s.regs.intCause.setWidth 32
  | 0x18 => s.regs.intEnable.setWidth 32
  | 0x1C => s.regs.faultInfo
  | _ => 0#32

end Sys2Proof.Machine
end

