-- ==== Sys2Proof/Machine/Results.lean ====
section
/-! DEFINITION. The completion queue and the repeat table's endings: how finished work is handed to the result
writer (R86, R112, R114, R140). -/

namespace Sys2Proof.Machine

/-- An entry is a round result of an index. -/
def Work.isRoundOf (i : Nat) : Work → Bool
  | .round j _ => j == i
  | .done _ _ => false
  | .rejected _ _ => false

/-- A round result takes the place of an earlier one of its index, or joins the end (R140). -/
def placeRound (i : Nat) (r : SendResult) : List Work → List Work
  | [] => [.round i r]
  | w :: ws => if w.isRoundOf i then .round i r :: ws else w :: placeRound i r ws

/-- The front entry of the queue is being written by the port. -/
def State.frontGranted (s : State) : Bool :=
  match s.port.unit with
  | none => false
  | some u =>
    match u.kind with
    | .completion _ _ => true
    | .roundResult _ => true
    | .filled _ _ => false
    | .giveBack _ => false
    | .header _ => false
    | .sweeper => false

/-- The completion queue with a round result handed on; an entry in hand at the port no longer waits and is not
replaced (R140; log 20). -/
def State.queueWithRound (s : State) (i : Nat) (r : SendResult) : List Work :=
  match s.results.queue with
  | [] => [.round i r]
  | w :: ws => if s.frontGranted then w :: placeRound i r ws else placeRound i r (w :: ws)

/-- The completion queue replaced. -/
def State.setQueue (s : State) (q : List Work) : State := s.setResults { s.results with queue := q }

/-- A DONE completion is handed on (R140). -/
def State.handDone (s : State) (i : Nat) (r : SendResult) : State := s.setQueue (s.results.queue ++ [.done i r])

/-- A REJECTED completion is handed on (R140). -/
def State.handRejected (s : State) (i : Nat) (reason : ResultCode) : State :=
  s.setQueue (s.results.queue ++ [.rejected i reason])

/-- A round result is handed on (R140). -/
def State.handRound (s : State) (i : Nat) (r : SendResult) : State := s.setQueue (s.queueWithRound i r)

/-! ### The end of rounds and repetitions -/

/-- The repeat entry of an index. -/
def State.findRepeat (s : State) (i : Nat) : Option RepeatEntry := s.sched.repeats.find? (fun r => r.index == i)

/-- The repeat table replaced. -/
def State.setRepeats (s : State) (l : List RepeatEntry) : State := s.setSched { s.sched with repeats := l }

/-- A repeat entry changed. -/
def State.updateRepeat (s : State) (i : Nat) (f : RepeatEntry → RepeatEntry) : State :=
  s.setRepeats (s.sched.repeats.map (fun r => if r.index = i then f r else r))

/-- What an attempt or a round shows: its last attempt outcome, attempts and losses. -/
structure Figures where
  last : Option AttemptOutcome
  attempts : Nat
  losses : Nat
  deriving DecidableEq, Repr

/-- The last round figures of a repeat entry (R107). -/
def RepeatEntry.figures (r : RepeatEntry) : Figures := { last := r.last, attempts := r.attempts, losses := r.losses }

/-- A repetition ends: its place is free, and the final DONE of R114 is handed on with these figures and the moment
of the end. -/
def State.endRepeat (s : State) (r : RepeatEntry) (code : ResultCode) (g : Figures) (stamp : Word) : State :=
  (s.setRepeats (s.sched.repeats.filter (fun x => x.index != r.index))).handDone r.index
    { outcome := code, last := g.last, attempts := g.attempts, losses := g.losses, stamp := stamp
      repeats := r.count, overruns := r.overruns }

/-- A repeat entry whose round has ended with a round outcome: counted, the round's figures kept (R112). -/
def RepeatEntry.counted (r : RepeatEntry) (g : Figures) : RepeatEntry :=
  { r with count := sat65535 r.count, last := g.last, attempts := g.attempts, losses := g.losses, round := .between }

/-- Figures of the final DONE that a round ends uncounted: its own, but the last attempt outcome of the last round
figures when the round made no attempt (R114). -/
def RepeatEntry.finalFigures (r : RepeatEntry) (g : Figures) : Figures :=
  { g with last := if g.attempts = 0 then r.last else g.last }

/-- A round's outcome reaches the repeat table (R112). A round that is counted ends its repetition now; an uncounted one
ended it at its own moment (R114; log 22). -/
def State.roundEnded (s : State) (i : Nat) (code : ResultCode) (g : Figures) (stamp : Word) : State :=
  match s.findRepeat i with
  | none => s
  | some r =>
    if code.endsRound then
      let r1 := r.counted g
      if r.endRequest then s.endRepeat r1 .cancelled g s.now
      else if s.session.state = .stopping then s.endRepeat r1 .stopped g s.now
      else (s.updateRepeat i (fun _ => r1)).handRound i
        { outcome := code, last := g.last, attempts := g.attempts, losses := g.losses, stamp := stamp
          repeats := r1.count, overruns := r1.overruns }
    else s.endRepeat r code (r.finalFigures g) stamp

end Sys2Proof.Machine
end

