-- ==== Sys2Proof/Machine/Scheduler.lean ====
section
/-! DEFINITION. The send scheduler (chapter 5) with the joining of rounds (chapter 6): eligibility, selection and
arming, joining, outcomes, rests, expiry, cancellation, trunk-off and STOP processing, due times. -/

namespace Sys2Proof.Machine

/-- The scheduler works in every session state except UNSET and FAULTED (R104, R105). -/
def State.schedulerLive (s : State) : Bool :=
  match s.session.state with
  | .unset | .faulted => false
  | .running | .paused | .settling | .standby | .stopping => true

/-! ### Arming at the engine (R28) -/

/-- U of an engine in microseconds (R2). -/
def Engine.unitMicros (e : Engine) : Nat := 10 * e.timing.unit

/-- An entry armed on the engine (R28). -/
def Engine.arm (e : Engine) (i : Nat) (cls : FrameClass) (retry : Bool) : Engine :=
  { e with
    armed := some { index := i, cls := cls, retry := retry, holdUnits := holdUnits e.timing.hold cls retry }
    state := if e.state = .idle then .holding else e.state }

/-- The armed entry withdrawn (R28). -/
def Engine.withdraw (e : Engine) : Engine :=
  { e with armed := none, state := if e.state = .holding then .idle else e.state }

/-! ### Eligibility (R87) -/

/-- Worst-case duration of an entry on its trunk, in us (R22, R87). -/
def State.worstCaseMicros (s : State) (t : Trunk) (c : SendCopy) : Nat :=
  worstCaseUnits c.length c.replyWanted * (s.engine t).unitMicros

/-- An entry fits the sync window (R87). -/
def State.fitsWindow (s : State) (t : Trunk) (c : SendCopy) : Bool :=
  match s.session.window with
  | none => false
  | some left => decide (s.worstCaseMicros t c ≤ left)

/-- An entry is eligible (R87). -/
def State.eligible (s : State) (t : Trunk) (e : Entry) : Bool :=
  (e.condition == .waiting || e.condition == .armed) && e.endMark == .none
    && (e.copy.cls == .urgent || !(s.sched.windowMode.get t) || s.fitsWindow t e.copy)

/-! ### Selection (R88) -/

/-- A condition of armed becomes waiting. -/
def Entry.disarmed (e : Entry) : Entry := if e.condition = .armed then { e with condition := .waiting } else e

/-- The armed entry of a trunk withdrawn from its engine; it becomes waiting (R88). -/
def State.withdraw (s : State) (t : Trunk) : State :=
  match (s.engine t).armed with
  | none => s
  | some _ => (s.setEngine t (s.engine t).withdraw).setList t ((s.list t).map Entry.disarmed)

/-- An entry armed on a trunk; an entry armed before becomes waiting (R88). -/
def State.armEntry (s : State) (t : Trunk) (e : Entry) : State :=
  (s.setEngine t ((s.engine t).arm e.index e.copy.cls e.retry)).setList t
    (mapIndex e.index (fun x => { x with condition := .armed }) ((s.list t).map Entry.disarmed))

/-- The engine takes arming: its mode is ACTIVE and pending OFF is clear (R88). -/
def Engine.takesArming (e : Engine) : Bool := e.mode == .active && !e.pendingOff

/-- Selection for a trunk (R88). -/
def State.select (s : State) (t : Trunk) : State :=
  if s.schedulerLive && (s.engine t).takesArming then
    match (s.list t).find? (s.eligible t) with
    | none => s.withdraw t
    | some e => if (s.engine t).armed.map Armed.index = some e.index then s else s.armEntry t e
  else s

/-! ### Finishing (R86) -/

/-- The state without the entry of an index in a trunk's list; if it was armed, it is withdrawn (R86). -/
def State.removeEntry (s : State) (t : Trunk) (i : Nat) : State :=
  let s1 := s.setList t ((s.list t).filter (fun e => e.index != i))
  if (s.engine t).armed.map Armed.index = some i then s1.setEngine t (s.engine t).withdraw else s1

/-- The figures an entry shows. -/
def Entry.figures (e : Entry) : Figures := { last := e.last, attempts := e.attempts, losses := e.losses }

/-- A finished entry is handed on: a round to the repeat table, any other to the completion queue (R86). -/
def State.handOn (s : State) (e : Entry) (code : ResultCode) (stamp : Word) : State :=
  if e.round then s.roundEnded e.index code e.figures stamp
  else s.handDone e.index
    { outcome := code, last := e.last, attempts := e.attempts, losses := e.losses, stamp := stamp
      repeats := 0, overruns := 0 }

/-- An entry finishes: it leaves its list and is handed on (R86). A selection follows at the caller. -/
def State.finishEntry (s : State) (t : Trunk) (e : Entry) (code : ResultCode) (stamp : Word) : State :=
  (s.removeEntry t e.index).handOn e code stamp

/-! ### Trunk-off and STOP processing (R102, R104, R116, R117) -/

/-- Every entry handed on with an outcome at a moment, in list order. -/
def handOnAll (code : ResultCode) (stamp : Word) : List Entry → State → State
  | [], s => s
  | e :: es, s => handOnAll code stamp es (s.handOn e code stamp)

/-- Repetitions ended with their last round figures at a moment, in the order given. -/
def endRepeats (code : ResultCode) (stamp : Word) : List RepeatEntry → State → State
  | [], s => s
  | r :: rs, s => endRepeats code stamp rs (s.endRepeat r code r.figures stamp)

/-- The repeat entries of a trunk in ascending envelope index. -/
def State.repeatsOf (s : State) (t : Trunk) : List RepeatEntry :=
  orderBy (fun x y => decide (x.index < y.index)) (s.sched.repeats.filter (fun r => r.copy.trunk == t))

/-- Every entry of a trunk's list finishes with an outcome at a moment, in list order, then every repeat entry of the
trunk that is left ends. -/
def State.finishTrunk (s : State) (t : Trunk) (code : ResultCode) (stamp : Word) : State :=
  let s1 := handOnAll code stamp (s.list t) ((s.withdraw t).setList t [])
  endRepeats code stamp (s1.repeatsOf t) s1

/-- Whether a trunk has had its trunk-off processing since a claim was last decided for it (log 35). -/
def State.setOffDone (s : State) (t : Trunk) (done : Bool) : State :=
  s.setSched { s.sched with offDone := s.sched.offDone.set t done }

/-- Trunk-off processing: every entry still in the list finishes TRUNK_OFF, then every repetition that is left ends
(R102, R116). -/
def State.trunkOffProcessing (s : State) (t : Trunk) : State :=
  (s.setOffDone t true).finishTrunk t .trunkOff s.now

/-- Whether a trunk's trunk-off processing is kept back in STANDBY (log 33). -/
def State.setOffOwed (s : State) (t : Trunk) (owed : Bool) : State :=
  s.setSched { s.sched with offOwed := s.sched.offOwed.set t owed }

/-- A trunk-off processing that STANDBY kept back is made (R102, R169; log 33). -/
def State.offIfOwed (s : State) (t : Trunk) : State :=
  if s.sched.offOwed.get t then (s.setOffOwed t false).trunkOffProcessing t else s

/-- The trunk-off processings that STANDBY kept back are made, trunk 0 first (log 33). -/
def State.owedTrunksOff (s : State) : State := (((s.offIfOwed 0).offIfOwed 1).offIfOwed 2).offIfOwed 3

/-- No trunk-off processing is kept back: at STOP the STOP processing ends the entries in its place (R173; log 33). -/
def State.dropOwedOff (s : State) : State := s.setSched { s.sched with offOwed := Four.all false }

/-- STOP processing of a trunk in which no marked entry is left (R104, R117; log 21). -/
def State.stopProcessing (s : State) (t : Trunk) : State :=
  (s.setSched { s.sched with stopDone := s.sched.stopDone.set t true }).finishTrunk t .stopped s.now

/-- An attempt of the trunk is in flight. -/
def State.inFlight (s : State) (t : Trunk) : Bool :=
  (s.list t).any (fun e => e.condition == .inFlight)

/-- In STOPPING, a trunk's STOP processing at the first moment with no attempt in flight (R104). -/
def State.stopIfClear (s : State) (t : Trunk) : State :=
  if s.session.state = .stopping ∧ s.sched.stopDone.get t = false ∧ s.inFlight t = false
  then s.stopProcessing t else s

/-! ### Joining (R84) -/

/-- A new pending entry formed from a copy (R83). -/
def newEntry (i : Nat) (copy : SendCopy) (round : Bool) (seq now : Word) : Entry :=
  { index := i, copy := copy, round := round, seq := seq, attempts := 0, losses := 0, failures := 0
    last := none, retry := false, condition := .waiting, joined := now, endMark := .none, stamp := none }

/-- Where an entry stands: after every entry of its own class and of higher classes (R84). -/
def joinList (e : Entry) (l : List Entry) : List Entry :=
  insertBefore (fun x y => decide (x.copy.cls.code ≤ y.copy.cls.code)) e l

/-- The outcome with which an entry or a repeat claim of a trunk ends as it joins: STOPPED when the trunk has had its
STOP processing (R104, R117), TRUNK_OFF when it has had its trunk-off processing (R102, R116; log 28, log 35). -/
def State.endAtJoining (s : State) (t : Trunk) : Option ResultCode :=
  if s.session.state = .stopping ∧ s.sched.stopDone.get t = true then some .stopped
  else if s.sched.offDone.get t then some .trunkOff
  else none

/-- An entry joins its trunk's list; it finishes at once when that has had its trunk-off or its STOP processing
(R84). -/
def State.joinEntry (s : State) (i : Nat) (copy : SendCopy) (round : Bool) : State :=
  let t := copy.trunk
  let e := newEntry i copy round s.sched.seq s.now
  let s1 := s.setSched { s.sched with seq := s.sched.seq + 1, lists := s.sched.lists.set t (joinList e (s.list t)) }
  match s.endAtJoining t with
  | some code => s1.finishEntry t e code s.now
  | none => s1.select t

/-- Places of a list that are taken, a reserved one included (R82). -/
def State.placesTaken (s : State) (t : Trunk) : Nat :=
  (s.list t).length + (if s.sweeper.reservation = some (.list t) then 1 else 0)

/-- A trunk's list has a place that is neither taken nor reserved (R110). -/
def State.hasPlace (s : State) (t : Trunk) : Bool := decide (s.placesTaken t < Config.listPlaces)

/-! ### Rounds (R109, R110) -/

/-- Due since of an entry that is due. -/
def RepeatEntry.dueSince (r : RepeatEntry) : Option Word :=
  match r.round with
  | .due since => some since
  | .between => none
  | .inRound => none

/-- The longer due comes first; among equals the lower index (R110). -/
def State.dueBefore (s : State) (x y : RepeatEntry) : Bool :=
  let ax := s.elapsed (x.dueSince.getD s.now)
  let ay := s.elapsed (y.dueSince.getD s.now)
  decide (ay < ax) || (ax == ay && decide (x.index < y.index))

/-- The due entry of a trunk to which a free place goes (R110). -/
def State.nextRound (s : State) (t : Trunk) : Option RepeatEntry :=
  (orderBy s.dueBefore (s.sched.repeats.filter (fun r => r.copy.trunk == t && r.dueSince.isSome))).head?

/-- A round of a trunk can join now. -/
def State.roundJoinDue (s : State) (t : Trunk) : Bool :=
  s.schedulerLive && s.hasPlace t && (s.nextRound t).isSome

/-- A due entry joins its trunk's list when that has a free place (R110). -/
def State.joinRound (s : State) (t : Trunk) : State :=
  if s.schedulerLive && s.hasPlace t then
    match s.nextRound t with
    | none => s
    | some r => (s.updateRepeat r.index (fun x => { x with round := .inRound })).joinEntry r.index r.copy true
  else s

/-- The next due time of an entry has been reached (R109). -/
def State.dueTimeDue (s : State) (r : RepeatEntry) : Bool := s.schedulerLive && s.reached r.nextDue

/-- A due time of a repeat entry (R109, R113). -/
def State.dueTimeOf (s : State) (r : RepeatEntry) : State :=
  let r1 := { r with nextDue := r.nextDue + BitVec.ofNat 32 r.period }
  let skipped := { r1 with overruns := sat65535 r.overruns }
  match s.session.state with
  | .running | .paused | .settling =>
    match r.round with
    | .between => (s.updateRepeat r.index (fun _ => { r1 with round := .due r.nextDue })).joinRound r.copy.trunk
    | .due _ => s.updateRepeat r.index (fun _ => skipped)
    | .inRound => s.updateRepeat r.index (fun _ => skipped)
  | .standby => s.updateRepeat r.index (fun _ => skipped)
  | .stopping => s.updateRepeat r.index (fun _ => r1)
  | .unset => s
  | .faulted => s

/-- A repeating envelope's claim completes: the entry takes its place with its first round due at once; it ends at
joining when the trunk has had its STOP or trunk-off processing (R108). -/
def State.joinRepeat (s : State) (i : Nat) (copy : SendCopy) (period : Nat) : State :=
  let r : RepeatEntry :=
    { index := i, copy := copy, period := period, nextDue := s.now, round := .between, count := 0, overruns := 0
      last := none, attempts := 0, losses := 0, endRequest := false }
  let s1 := s.setRepeats (s.sched.repeats ++ [r])
  match s.endAtJoining copy.trunk with
  | some code => s1.endRepeat r code r.figures s.now
  | none => s1.dueTimeOf r

/-! ### Outcomes of an attempt (R91) -/

/-- The attempt recorded in its entry (R91). -/
def Entry.record (e : Entry) (o : AttemptOutcome) : Entry :=
  { e with
    last := some o
    losses := if o = .lost then sat255 e.losses else e.losses
    failures := if o = .busy ∨ o = .noReply ∨ o = .shape then e.failures + 1 else e.failures }

/-- The send toggle of a destination (R100); 0 for destination 63. -/
def State.toggle (s : State) (t : Trunk) (dest : Nat) : Bool := (s.sched.toggles.get t).getLsbD dest

/-- The send toggle of a destination flipped (R100). -/
def State.flipToggle (s : State) (t : Trunk) (dest : Nat) : State :=
  s.setSched { s.sched with toggles := s.sched.toggles.set t (s.sched.toggles.get t ^^^ (1#63 <<< dest)) }

/-- The outcome that a budget exhausted by a failure gives (R91 case 4). -/
def exhaustedBy (o : AttemptOutcome) : ResultCode :=
  match o with
  | .busy => .busyExhausted
  | .noReply => .noReplyExhausted
  | .shape => .shapeExhausted
  | .accepted => .accepted
  | .sent => .sent
  | .lost => .shapeExhausted

/-- The cases of R91 for an entry whose attempt has been recorded. -/
def State.decideEntry (s : State) (t : Trunk) (e : Entry) (o : AttemptOutcome) : State :=
  let keep := fun (c : Condition) (retry : Bool) =>
    s.updateEntry t e.index (fun x => { x.record o with condition := c, retry := retry })
  if o = .accepted then (s.flipToggle t e.copy.dest).finishEntry t e .accepted s.now
  else if o = .sent then s.finishEntry t e .sent s.now
  else if e.endMark = .cancelled then s.finishEntry t e .cancelled s.now
  else if e.endMark = .expired then s.finishEntry t e .expired s.now
  else if o = .lost then keep .waiting false
  else if e.copy.retries < e.failures then s.finishEntry t e (exhaustedBy o) s.now
  else if o = .busy then keep (.resting (s.sched.backoff.get t) s.now) false
  else keep .waiting true

/-- The engine reports an outcome (R37): the scheduler records it, decides the entry, selects, and makes the STOP
processing that waited for it; frozen in FAULTED it discards the report (R91, R104, R105). -/
def State.outcome (s : State) (t : Trunk) (i : Nat) (o : AttemptOutcome) : State :=
  if s.schedulerLive then
    match s.findEntry t i with
    | none => s
    | some e => ((s.decideEntry t (e.record o) o).select t).stopIfClear t
  else s

/-! ### Rests, expiry, cancellation (R93, R95 to R99, R115) -/

/-- The busy backoff of a resting entry has elapsed (R93). -/
def State.restDue (s : State) (e : Entry) : Bool :=
  match e.condition with
  | .resting backoff began => s.schedulerLive && decide (backoff ≤ s.elapsed began)
  | .waiting => false
  | .armed => false
  | .inFlight => false

/-- The expiry of an entry without an end mark has elapsed (R95). -/
def State.expiryDue (s : State) (e : Entry) : Bool :=
  match e.copy.expiry with
  | none => false
  | some ms => s.schedulerLive && e.endMark == .none && decide (ms ≤ s.elapsed e.joined)

/-- An entry expires: marked in STANDBY, end mark in flight, else it finishes (R95, R96, R97). -/
def State.expireEntry (s : State) (t : Trunk) (e : Entry) : State :=
  if s.session.state = .standby then
    s.updateEntry t e.index (fun x => { x with endMark := .expired, stamp := some s.now })
  else if e.condition = .inFlight then s.updateEntry t e.index (fun x => { x with endMark := .expired })
  else (s.finishEntry t e .expired s.now).select t

/-- A cancel reaches a pending entry (R98, R99, R115). -/
def State.cancelEntry (s : State) (t : Trunk) (e : Entry) : State :=
  if e.condition = .inFlight then
    let s1 := if e.endMark = .none then s.updateEntry t e.index (fun x => { x with endMark := .cancelled }) else s
    if e.round then s1.updateRepeat e.index (fun r => { r with endRequest := true }) else s1
  else (s.finishEntry t e .cancelled s.now).select t

/-- A cancel for a send-side index reaches the scheduler (R98, R115). -/
def State.sendCancel (s : State) (i : Nat) : State :=
  match s.trunkOf i with
  | some t =>
    match s.findEntry t i with
    | some e => s.cancelEntry t e
    | none => s
  | none =>
    match s.findRepeat i with
    | some r => s.endRepeat r .cancelled r.figures s.now
    | none => s

/-! ### Entries marked EXPIRED in STANDBY, at RESUME and at STOP (R97, R104, R171, R173) -/

/-- An entry marked in STANDBY, with its trunk. -/
abbrev Marked := Trunk × Entry

/-- The earlier moment of expiry comes first. -/
def State.markedEarlier (s : State) (x y : Marked) : Bool :=
  decide (s.elapsed (y.2.stamp.getD s.now) < s.elapsed (x.2.stamp.getD s.now))

/-- How many entries have joined since an entry did, measured across the wrap of the counter (R84). -/
def State.joinedSince (s : State) (e : Entry) : Nat := (s.sched.seq - e.seq).toNat

/-- The earlier moment of expiry comes first; in the same millisecond the entry that joined earlier (R97). -/
def State.markedBefore (s : State) (x y : Marked) : Bool :=
  s.markedEarlier x y || (!s.markedEarlier y x && decide (s.joinedSince y.2 < s.joinedSince x.2))

/-- The marked entries of a trunk by moment of expiry, in list order within a millisecond. -/
def State.markedOf (s : State) (t : Trunk) : List Marked :=
  orderBy s.markedEarlier (((s.list t).filter (fun e => e.stamp.isSome)).map (fun e => (t, e)))

/-- All marked entries in the order in which they join the completion queue (R97; log 21). -/
def State.marked (s : State) : List Marked :=
  let merge := fun (xs ys : List Marked) => mergeHeads s.markedBefore (xs.length + ys.length) xs ys
  merge (merge (s.markedOf 0) (s.markedOf 1)) (merge (s.markedOf 2) (s.markedOf 3))

/-- At RESUME: marked entries finish EXPIRED with their kept stamps (R97). -/
def finishMarked : List Marked → State → State
  | [], s => s
  | m :: ms, s => finishMarked ms ((s.finishEntry m.1 m.2 .expired (m.2.stamp.getD s.now)).select m.1)

/-- In a list, an entry stands at another or behind it. -/
def standsBehind (l : List Entry) (e other : Entry) : Bool :=
  (l.dropWhile (fun x => x.index != other.index)).any (fun x => x.index == e.index)

/-- The first marked entry, in the order of R97, that stands behind an entry of a trunk's list. -/
def State.markedBehind (s : State) (t : Trunk) (e : Entry) : Option Marked :=
  s.marked.find? (fun m => m.1 == t && standsBehind (s.list t) m.2 e)

/-- The unmarked entries that finish just before a marked one: those for which it is the first marked entry behind. -/
def State.aheadOf (s : State) (m : Marked) : List Marked :=
  ((s.list m.1).filter (fun e => e.stamp.isNone && s.markedBehind m.1 e == some m)).map (fun e => (m.1, e))

/-- The order of the STOP processings from STANDBY, as far as marked entries fix it: these in the order of R97, each
behind the unmarked entries ahead of it in its list (R104; log 21). -/
def State.stopOrder (s : State) : List Marked := s.marked.flatMap (fun m => s.aheadOf m ++ [m])

/-- The outcome of an entry at its trunk's STOP processing (R104). -/
def Entry.stopCode (e : Entry) : ResultCode := if e.stamp.isSome then .expired else .stopped

/-- At STOP: entries finish, a marked one EXPIRED with its kept stamp, every other STOPPED (R104). -/
def finishAtStop : List Marked → State → State
  | [], s => s
  | m :: ms, s => finishAtStop ms (s.finishEntry m.1 m.2 m.2.stopCode (m.2.stamp.getD s.now))

end Sys2Proof.Machine
end

