-- ==== Sys2Proof/Machine/Director.lean ====
section
/-! DEFINITION. The receive director (chapter 7) and the standby logic's part in it (R170): address match, duplicate
test, the decision at the tail, slot assignment, cancellation, STOP. -/

namespace Sys2Proof.Machine

/-- Kind of a frame by its destination (R121). -/
inductive FrameKind where
  | unicast
  | group
  | broadcast
  | noMatch
  deriving DecidableEq, Repr

/-- The address match (R121). -/
def Listen.kindOf (l : Listen) (dest : Nat) : FrameKind :=
  if dest = l.own then .unicast
  else if some dest = l.groups.t0 ∨ some dest = l.groups.t1 ∨ some dest = l.groups.t2 ∨ some dest = l.groups.t3
  then .group
  else if dest = 63 ∧ l.acceptBroadcast = true then .broadcast
  else .noMatch

/-- The duplicate-table entry of a source (R123). -/
def Director.duplicateOf (d : Director) (t : Trunk) (source : Nat) : Option Duplicate :=
  ((d.dups.get t)[source]?).getD none

/-- What the duplicate table remembers of a frame (R123). -/
def GoodFrame.duplicate (g : GoodFrame) : Duplicate := { toggle := g.toggle, length := g.length, check := g.check }

/-- A frame is a duplicate: unicast, and its entry holds its toggle, length and check octet (R124). -/
def State.isDuplicate (s : State) (t : Trunk) (g : GoodFrame) : Bool :=
  ((s.director.listen.get t).kindOf g.dest == .unicast) && s.director.duplicateOf t g.source == some g.duplicate

/-- The delivery queue replaced. -/
def State.setFrames (s : State) (q : List QueuedFrame) : State := s.setDirector { s.director with queue := q }

/-- The receive list replaced. -/
def State.setReceiveList (s : State) (l : List Offered) : State := s.setDirector { s.director with receiveList := l }

/-! ### Slot assignment (R130, R131) -/

/-- The first entry of the receive list that serves a trunk, and the list without it (R130). -/
def takeOffered (t : Trunk) : List Offered → Option (Offered × List Offered)
  | [] => none
  | o :: os =>
    if o.mask.getLsbD t.val then some (o, os)
    else (takeOffered t os).map (fun p => (p.1, o :: p.2))

/-- One assignment from the oldest frame to the newest; `waiting` lists the trunks of which an older frame lacks a
slot (R130). -/
def assignFrom (waiting : List Trunk) : List QueuedFrame → List Offered → List QueuedFrame × List Offered
  | [], l => ([], l)
  | q :: qs, l =>
    if q.slot.isSome then
      let r := assignFrom waiting qs l
      (q :: r.1, r.2)
    else if waiting.contains q.trunk then
      let r := assignFrom waiting qs l
      (q :: r.1, r.2)
    else
      match takeOffered q.trunk l with
      | none =>
        let r := assignFrom (q.trunk :: waiting) qs l
        (q :: r.1, r.2)
      | some (o, l') =>
        let r := assignFrom waiting qs l'
        ({ q with slot := some o.index } :: r.1, r.2)

/-- A slot assignment (R130). -/
def State.assignSlots (s : State) : State :=
  let r := assignFrom [] s.director.queue s.director.receiveList
  s.setDirector { s.director with queue := r.1, receiveList := r.2 }

/-- Slot assignment follows a joining in RUNNING and PAUSED, but not during the resume processing before its own
assignment (R131, R172). -/
def State.assignIfRunning (s : State) : State :=
  if (s.session.state = .running ∨ s.session.state = .paused) ∧ s.session.resumeOwed = none then s.assignSlots else s

/-! ### WAKE (R170) -/

/-- An acceptance in STANDBY reaches the standby logic. -/
def State.reportAcceptance (s : State) (t : Trunk) : State :=
  if s.standby.wakeEnable.get t = true ∧ s.standby.wake = false then
    (s.setStandby { s.standby with wake := true }).raise .wake
  else s

/-! ### The decision at the tail (R120 to R127) -/

/-- A malformed result (R120). -/
def State.malformedSeen (s : State) (t : Trunk) : State := s.tally t Tally.addMalformed

/-- The order for an answer that is given only when a reply is wanted. -/
def answerIf (replyWanted : Bool) (o : AnswerOrder) : AnswerOrder := if replyWanted then o else .silent

/-- The frame as it joins the delivery queue (R122, R125, R128). -/
def State.queuedFrame (s : State) (t : Trunk) (g : GoodFrame) : QueuedFrame :=
  let l := s.director.listen.get t
  { trunk := t, source := g.source, dest := g.dest, channel := g.channel, cls := g.cls, length := g.length
    payload := g.payload, stamp := s.now
    broadcast := l.kindOf g.dest == .broadcast
    group := l.kindOf g.dest == .group
    heldStandby := s.session.state == .standby
    clash := g.source == l.own
    slot := none }

/-- The duplicate table takes a unicast frame that joins the queue (R123). -/
def State.rememberUnicast (s : State) (t : Trunk) (g : GoodFrame) : State :=
  if (s.director.listen.get t).kindOf g.dest = .unicast then
    s.setDirector
      { s.director with
        dups := s.director.dups.set t ((s.director.dups.get t).setIfInBounds g.source (some g.duplicate)) }
  else s

/-- A frame is accepted: it joins the end of the delivery queue (R125). -/
def State.acceptFrame (s : State) (t : Trunk) (g : GoodFrame) : State :=
  let s1 := (s.setFrames (s.director.queue ++ [s.queuedFrame t g])).rememberUnicast t g
  if s.session.state = .standby then s1.reportAcceptance t else s1.assignIfRunning

/-- The queue takes frames in these states (R125, R126). -/
def State.queueOpen (s : State) : Bool :=
  match s.session.state with
  | .running | .paused | .settling | .standby => true
  | .stopping | .faulted | .unset => false

/-- The director decides on a good frame at its tail rise: the state after it, and the answer order (R121 to R126). -/
def State.decideFrame (s : State) (t : Trunk) (g : GoodFrame) : State × AnswerOrder :=
  if (s.director.listen.get t).kindOf g.dest = .noMatch then (s, .silent)
  else if s.isDuplicate t g then (s.tally t Tally.addDuplicate, answerIf g.replyWanted .accept)
  else if s.queueOpen then
    if s.director.queue.length < Config.deliveryPlaces then (s.acceptFrame t g, answerIf g.replyWanted .accept)
    else ((s.tally t Tally.addRefused).raise .starved, answerIf g.replyWanted .busy)
  else (s.tally t Tally.addRefused, answerIf g.replyWanted .busy)

/-! ### Cancellation, STOP (R133, R136) -/

/-- A cancel for a receive-side index reaches the director (R133). -/
def State.receiveCancel (s : State) (i : Nat) : State :=
  if s.director.receiveList.any (fun o => o.index == i) then
    (s.setReceiveList (s.director.receiveList.filter (fun o => o.index != i))).handRejected i .cancelled
  else s

/-- Frames discarded at STOP add to the frames-refused tallies of their trunks, in queue order (R136). -/
def refuseFrames : List QueuedFrame → State → State
  | [], s => s
  | q :: qs, s => refuseFrames qs (s.tally q.trunk Tally.addRefused)

/-- The delivery queue closes at STOP: frames without a slot are discarded (R136). -/
def State.closeQueue (s : State) : State :=
  refuseFrames (s.director.queue.filter (fun q => q.slot.isNone))
    (s.setFrames (s.director.queue.filter (fun q => q.slot.isSome)))

/-- The oldest frame that holds a slot (R132). -/
def Director.nextWrite (d : Director) : Option QueuedFrame := d.queue.find? (fun q => q.slot.isSome)

/-- The frame written into a slot leaves the queue (R132). -/
def State.dropFrame (s : State) (slot : Nat) : State :=
  s.setFrames (s.director.queue.filter (fun q => q.slot != some slot))

end Sys2Proof.Machine
end

