-- ==== Sys2Proof/Machine/Line.lean ====
section
/-! DEFINITION. One line engine by itself (chapters 1 and 2): how an edge or the passing of time is judged, what the
transmitter and the receiver make of it, entering and leaving states. Nothing here touches another block. -/

namespace Sys2Proof.Machine

/-- `k` half units of an engine's U, in us (R2). -/
def Engine.halves (e : Engine) (k : Nat) : Nat := 5 * e.timing.unit * k

/-- The engine pulls its line low (R1): in a mark of its own frame and in an answer pulse. -/
def Engine.drives (e : Engine) : Bool :=
  match e.pulse with
  | .mark _ => true
  | .answer _ => true
  | .quiet => false
  | .rising _ => false
  | .gap => false
  | .answered => false

/-- The level on the wire: low when any station pulls low (R1). -/
def Engine.wire (e : Engine) : Level := if e.drives || e.stationsLow then .low else .high

/-- The other level. -/
def otherLevel : Level → Level
  | .low => .high
  | .high => .low

/-- No frame is in progress (R24). -/
def EngineState.atRest : EngineState → Bool
  | .idle => true
  | .holding => true
  | .off => false
  | .sending _ => false
  | .replyWait => false
  | .receiving => false
  | .answering => false
  | .stuck => false

/-- The engine is SENDING. -/
def EngineState.isSending : EngineState → Bool
  | .sending _ => true
  | .off => false
  | .idle => false
  | .holding => false
  | .replyWait => false
  | .receiving => false
  | .answering => false
  | .stuck => false

/-- The engine follows a foreign frame up to its tail rise. -/
def Engine.followsForeign (e : Engine) : Bool := e.state == .receiving && e.window == none

/-! ### The symbol assembly buffer (R39) -/

/-- Kinds of fault that make a frame malformed (R12). -/
inductive Malformation where
  | shapeError
  | truncation
  | fieldError
  | checkFailure
  deriving DecidableEq, Repr

/-- A symbol appended; each eighth completes an octet (R39). The length is learnt with header symbol 21 (R8): it is
the first five symbols of the third octet. -/
def Buffer.push (b : Buffer) (v : Bool) : Buffer :=
  let bits := b.bits ++ [v]
  let length := if b.count = 20 then some (octetOfBits bits).toNat else b.length
  if bits.length = 8 then
    { b with
      count := b.count + 1, bits := [], octets := b.octets ++ [octetOfBits bits], sum := b.sum + octetOfBits bits
      length := length }
  else { b with count := b.count + 1, bits := bits, length := length }

/-- Symbol `p` of the frame being followed. -/
def Buffer.symbol (b : Buffer) (p : Nat) : Bool :=
  if p / 8 < b.octets.length then (byteAt b.octets (p / 8)).getLsbD (7 - p % 8) else b.bits.getD (p % 8) false

/-- The number that `width` symbols from symbol `p` on spell. -/
def Buffer.field (b : Buffer) (p width : Nat) : Nat :=
  (List.range width).foldl (fun n k => 2 * n + (b.symbol (p + k)).toNat) 0

/-- The header field that has just completed is in error (R9). -/
def Buffer.fieldError (b : Buffer) : Bool :=
  match b.count with
  | 2 => b.field 0 2 == 3
  | 14 => b.field 8 6 == 63
  | 16 => b.field 2 6 == 63 && b.symbol 15
  | 21 => decide (24 < b.field 16 5)
  | _ => false

/-- The last symbol of the check octet has taken its value (R8). -/
def Buffer.complete (b : Buffer) : Bool :=
  match b.length with
  | none => false
  | some l => b.count == symbolCount l

/-- The frame passes its check (R11). -/
def Buffer.checkPasses (b : Buffer) : Bool := b.sum == 255#8

/-- The buffer after the fall that ends a lead gap or a symbol gap (R5, R7): a gap of 2U or more is a 1. -/
def Engine.bufferAfterFall (e : Engine) : Buffer :=
  if e.buffer.leadTaken then e.buffer.push (decide (e.halves 4 ≤ e.edgeTime))
  else { e.buffer with leadTaken := true }

/-! ### How an edge is judged -/

/-- What an edge shows. -/
inductive Verdict where
  /-- nothing beyond the edge itself -/
  | plain
  /-- an arbitration loss (R18) -/
  | lost
  /-- the attempt ends SHAPE (R18, R20) -/
  | shape
  /-- the foreign frame is malformed (R5, R6, R7, R9, R11) -/
  | malformed (kind : Malformation)
  /-- the tail rise of a foreign frame that passes its check (R8, R11) -/
  | goodFrame
  /-- the tail rise of the engine's own frame (R33) -/
  | tailReached
  deriving DecidableEq, Repr

/-- A fall in a gap of the engine's own frame, judged by R18 and R31. -/
def Engine.judgeOwnFall (e : Engine) : Verdict :=
  match e.state, e.pulse with
  | .sending .lead, .gap => if e.edgeTime < e.halves 6 then .shape else .plain
  | .sending .symbols, .gap =>
    if e.edgeTime < e.halves 1 then .shape
    else
      match e.attempt with
      | none => .plain
      | some a => if a.symbol a.position && decide (e.edgeTime < e.halves 4) then .lost else .plain
  | _, _ => .plain

/-- A fall that ends a gap of a foreign frame, judged by R5, R7 and R9. -/
def Engine.judgeForeignFall (e : Engine) : Verdict :=
  if e.buffer.leadTaken then
    if e.edgeTime < e.halves 1 then .malformed .shapeError
    else if e.halves 9 < e.edgeTime then .malformed .truncation
    else if e.bufferAfterFall.fieldError then .malformed .fieldError
    else .plain
  else if e.edgeTime < e.halves 6 then .malformed .shapeError
  else if e.halves 10 < e.edgeTime then .malformed .truncation
  else .plain

/-- A rise after a mark of the engine's own frame (R20, R33). -/
def Engine.judgeOwnRise (e : Engine) : Verdict :=
  match e.pulse with
  | .rising w =>
    if e.halves 4 < w then .shape
    else if e.state = .sending .tail then .tailReached
    else .plain
  | _ => .plain

/-- A rise that ends a mark of a foreign frame, judged by R5, R6, R8 and R11. -/
def Engine.judgeForeignRise (e : Engine) : Verdict :=
  if e.buffer.leadTaken then
    if e.edgeTime < e.halves 1 ∨ e.halves 3 < e.edgeTime then .malformed .shapeError
    else if e.buffer.complete then (if e.buffer.checkPasses then .goodFrame else .malformed .checkFailure)
    else .plain
  else if e.halves 20 < e.edgeTime then .malformed .shapeError
  else .plain

/-- What an edge to a level shows. -/
def Engine.judgeEdge (e : Engine) (l : Level) : Verdict :=
  match l with
  | .low =>
    if e.state.isSending then e.judgeOwnFall
    else if e.followsForeign then e.judgeForeignFall
    else .plain
  | .high =>
    if e.state.isSending then e.judgeOwnRise
    else if e.followsForeign then e.judgeForeignRise
    else .plain

/-- An edge can come: the line changes to the other level, and it does not rise while the engine pulls it low. -/
def Engine.edgePossible (e : Engine) (l : Level) : Bool := e.level != l && !(l == .high && e.drives)

/-! ### How the passing of time is judged -/

/-- The line has not answered the engine's own drive in time (R20). -/
def Engine.shapeByTime (e : Engine) : Bool :=
  e.state.isSending &&
    match e.pulse with
    | .mark w => e.level == .high && decide (e.halves 1 ≤ w)
    | .rising w => e.level == .low && decide (e.halves 4 ≤ w)
    | .quiet => false
    | .gap => false
    | .answer _ => false
    | .answered => false

/-- The foreign frame has become malformed without an edge (R5, R6, R7). -/
def Engine.malformedByTime (e : Engine) : Option Malformation :=
  if e.followsForeign then
    match e.buffer.leadTaken, e.level with
    | false, .low => if e.halves 20 ≤ e.edgeTime then some .shapeError else none
    | false, .high => if e.halves 10 ≤ e.edgeTime then some .truncation else none
    | true, .low => if e.halves 3 ≤ e.edgeTime then some .shapeError else none
    | true, .high => if e.halves 9 ≤ e.edgeTime then some .truncation else none
  else none

/-- The length of the mark or gap that the transmitter holds, in half units (01 section 1.3). -/
def Engine.elementHalves (e : Engine) : Nat :=
  match e.state, e.pulse with
  | .sending .lead, .mark _ => 16
  | .sending .lead, .gap => 8
  | .sending .symbols, .gap =>
    match e.attempt with
    | none => 2
    | some a => if a.symbol a.position then 6 else 2
  | _, _ => 2

/-- The transmitter's own mark or gap has lasted its length (R4, R31, R32, R33). -/
def Engine.elementElapsed (e : Engine) : Bool :=
  e.state.isSending &&
    match e.pulse with
    | .mark w => decide (e.halves e.elementHalves ≤ w)
    | .gap => decide (e.halves e.elementHalves ≤ e.edgeTime)
    | .rising _ => false
    | .quiet => false
    | .answer _ => false
    | .answered => false

/-- A candidate lead mark has lasted 6U (R5, R38). -/
def Engine.leadMarkDue (e : Engine) : Bool :=
  e.state.atRest && e.level == .low && e.candidate && decide (e.halves 12 ≤ e.lowTime)

/-- The low time has reached 40U (R43). -/
def Engine.stuckDue (e : Engine) : Bool := e.state.atRest && e.level == .low && decide (e.halves 80 ≤ e.lowTime)

/-- The recovery time has reached 20U (R44). -/
def Engine.recoveryDue (e : Engine) : Bool :=
  e.state == .stuck && e.level == .high && decide (e.halves 40 ≤ e.recoveryTime)

/-- The reply window has lasted 9U. -/
def Engine.windowOver (e : Engine) : Bool :=
  match e.window with
  | none => false
  | some w => decide (e.halves 18 ≤ w)

/-- The window of the engine's own frame closes (R34). -/
def Engine.replyCloseDue (e : Engine) : Bool := e.state == .replyWait && e.windowOver

/-- The window of a received frame closes (R40, R41). -/
def Engine.foreignCloseDue (e : Engine) : Bool :=
  (e.state == .receiving || e.state == .answering) && e.windowOver

/-- The outcome of a reply pulse that rose after `w` us (R14). -/
def Engine.classifyPulse (e : Engine) (w : Nat) : AttemptOutcome :=
  if w < e.halves 2 then .shape
  else if w < e.halves 7 then .accepted
  else if w ≤ e.halves 14 then .busy
  else .shape

/-- The attempt has reached its tail and its outcome is not settled (R34). -/
def Engine.awaitsReply (e : Engine) : Bool := e.attempt.isSome && !e.state.isSending

/-- The outcome that is settled now, if any (R14, R34). -/
def Engine.settled (e : Engine) : Option AttemptOutcome :=
  if e.awaitsReply then
    match e.reply with
    | .unset => none
    | .low => if e.halves 14 ≤ e.lowTime then some .shape else none
    | .waiting => if e.window == none || e.windowOver then some .noReply else none
    | .rose w => if e.window == none || e.windowOver then some (e.classifyPulse w) else none
  else none

/-- The answer pulse begins 2U after the tail rise (R13, R41). -/
def Engine.answerStartDue (e : Engine) : Bool :=
  e.state == .answering && e.pulse == .quiet &&
    match e.window with
    | none => false
    | some w => decide (e.halves 4 ≤ w)

/-- Length of the ordered answer pulse in half units: 2U or 5U (R13). -/
def AnswerOrder.halves : AnswerOrder → Nat
  | .silent => 0
  | .accept => 4
  | .busy => 10

/-- The answer pulse has lasted its length (R41). -/
def Engine.answerEndDue (e : Engine) : Bool :=
  e.state == .answering &&
    match e.pulse with
    | .answer w => decide (e.halves e.answer.halves ≤ w)
    | .quiet => false
    | .mark _ => false
    | .rising _ => false
    | .gap => false
    | .answered => false

/-- Pending timing takes effect (R47), in FAULTED as in any session state (log 34). An outcome that has not been settled
is judged first, by the timing of its reply window (log 36). -/
def Engine.timingDue (e : Engine) : Bool :=
  e.pendingTiming.isSome && e.state.atRest && e.level == .high && e.attempt == none

/-- The engine enters OFF: pending OFF is set, no frame is in progress, and no outcome is owed (R46; log 15). -/
def Engine.offDue (e : Engine) : Bool :=
  e.pendingOff && (e.state.atRest || e.state == .stuck) && e.attempt == none

/-- The hold clock has reached the armed entry's hold time (R29); pending OFF lets no lead start (R46). -/
def Engine.holdReached (e : Engine) : Bool :=
  e.state == .holding && e.takesArming &&
    match e.armed with
    | none => false
    | some a => decide (a.holdUnits * e.unitMicros ≤ e.holdClock)

/-! ### What an edge changes in the engine -/

/-- The reply classification after an edge (R14): a fall 1U to 3U after the tail rise begins the pulse, its rise
ends it. -/
def Engine.replyAfterEdge (e : Engine) (l : Level) : ReplySeen :=
  match e.reply, l with
  | .waiting, .low =>
    match e.window with
    | none => .waiting
    | some w => if e.state = .replyWait ∧ e.halves 2 ≤ w ∧ w ≤ e.halves 6 then .low else .waiting
  | .low, .high => .rose e.lowTime
  | r, _ => r

/-- The next mark of the engine's own frame begins: the engine pulls low (R4, R31, R32). After the lead gap it is
the first header mark; after the last symbol's gap it is the tail mark. -/
def Engine.beginMark (e : Engine) : Engine :=
  match e.state, e.attempt with
  | .sending .lead, _ => { e with pulse := .mark 0, state := .sending .symbols }
  | .sending .symbols, some a =>
    if a.position + 1 < symbolCount a.length then
      { e with pulse := .mark 0, attempt := some { a with position := a.position + 1 } }
    else { e with pulse := .mark 0, state := .sending .tail }
  | _, _ => { e with pulse := .mark 0 }

/-- The buffer after an edge: a fall that ends a gap of the frame being followed is taken into it (R32, R39). The
fall of the engine's own lead mark ends no gap. -/
def Engine.bufferAfterEdge (e : Engine) (l : Level) : Buffer :=
  match l with
  | .high => e.buffer
  | .low =>
    if e.followsForeign then e.bufferAfterFall
    else
      match e.state, e.pulse with
      | .sending .lead, .mark _ => e.buffer
      | .sending _, _ => e.bufferAfterFall
      | _, _ => e.buffer

/-- The transmitter's answer to an edge that shows nothing special: a fall in its gap begins its next mark, and a
rise after its mark begins its gap (R4, R18). -/
def Engine.transmitterAfterEdge (e : Engine) (l : Level) : Engine :=
  match l, e.pulse with
  | .low, .gap => e.beginMark
  | .high, .rising _ => { e with pulse := .gap }
  | _, _ => e

/-- The clocks, the level, the buffer and the reply classification after a recognised edge (R3, R14, R27, R39, R42,
R44). A fall that the engine does not drive is another station's. -/
def Engine.noteEdge (e : Engine) (l : Level) : Engine :=
  { e with
    level := l
    edgeTime := 0
    rawTime := 0
    lowTime := 0
    holdClock := 0
    recoveryTime := 0
    stationsLow := (l == .low) && (e.stationsLow || !e.drives)
    candidate := (l == .low) && e.state.atRest
    buffer := e.bufferAfterEdge l
    reply := e.replyAfterEdge l }

/-! ### Entering and leaving states -/

/-- IDLE, or HOLDING when an entry is armed (02 section 2.8). -/
def Engine.restState (e : Engine) : EngineState := if e.armed.isSome then .holding else .idle

/-- The frame in progress ends: the engine drives nothing, the window is closed, the hold clock returns to 0, and the
engine is in HOLDING or IDLE (R27, R33 to R35, R39 to R41). A low in progress is no candidate lead mark. -/
def Engine.endFrame (e : Engine) : Engine :=
  { e with
    state := e.restState, pulse := .quiet, window := none, answer := .silent, holdClock := 0
    buffer := Buffer.cleared false, candidate := false }

/-- The attempt is over: its record and its reply classification are cleared. -/
def Engine.clearAttempt (e : Engine) : Engine := { e with attempt := none, reply := .unset }

/-- The low that began at the edge on which the frame was judged may be a lead mark (R5, R38; log 14). -/
def Engine.markCandidate (e : Engine) (l : Level) : Engine := { e with candidate := l == .low }

/-- The engine enters IDLE from OFF in a mode, taking the level as it stands (R26). -/
def Engine.enterFromOff (e : Engine) (m : Mode) : Engine :=
  { e with
    mode := m, state := .idle, holdClock := 0, lowTime := 0, recoveryTime := 0, edgeTime := 0, candidate := false
    armed := none, attempt := none, buffer := Buffer.cleared false, answer := .silent, pulse := .quiet
    window := none, reply := .unset, pendingOff := false }

/-- The engine enters OFF: the line is released, everything in hand is dropped, and the timing values in force
become the pending ones (R25, R46, R47, R48). -/
def Engine.enterOff (e : Engine) : Engine :=
  { e with
    mode := .off, state := .off, pendingOff := false, timing := e.pendingTiming.getD e.timing, pendingTiming := none
    holdClock := 0, lowTime := 0, recoveryTime := 0, armed := none, attempt := none
    buffer := Buffer.cleared false, answer := .silent, pulse := .quiet, candidate := false, window := none
    reply := .unset }

/-- The engine at the end of STOP: OFF, with pending timing cleared and the timing values kept (R48). -/
def Engine.stopOff (e : Engine) : Engine := { e with pendingTiming := none }.enterOff

/-- The engine after RESET: every field of R23 at its reset value, the pulses released; the line itself and what the
receiver has recognised of it are not changed by the command (R48; log 12). -/
def Engine.afterReset (e : Engine) : Engine :=
  { Engine.reset with level := e.level, edgeTime := e.edgeTime, stationsLow := e.stationsLow, rawTime := e.rawTime }

/-- Timing values put in force: the hold clock returns to 0 and the armed entry's hold time is computed anew (R47). The
filter's count runs on, toward the new filter time (log 37). -/
def Engine.takeTiming (e : Engine) : Engine :=
  match e.pendingTiming with
  | none => e
  | some v =>
    { e with
      timing := v, pendingTiming := none, holdClock := 0
      armed := e.armed.map (fun a => { a with holdUnits := holdUnits v.hold a.cls a.retry }) }

/-! ### One microsecond (log 2, log 4) -/

/-- A pulse one microsecond later. -/
def Pulse.tick : Pulse → Pulse
  | .quiet => .quiet
  | .mark w => .mark (w + 1)
  | .rising w => .rising (w + 1)
  | .gap => .gap
  | .answer w => .answer (w + 1)
  | .answered => .answered

/-- The engine one microsecond later: the filter's count runs in every state (R1, R3), the other clocks in every
state but OFF (R25, R27, R42, R44). -/
def Engine.tick (e : Engine) : Engine :=
  let filtered := { e with edgeTime := e.edgeTime + 1, rawTime := if e.wire = e.level then 0 else e.rawTime + 1 }
  if e.state = .off then filtered
  else
    { filtered with
      holdClock := if e.state.atRest ∧ e.level = .high then e.holdClock + 1 else 0
      lowTime := if e.level = .low then e.lowTime + 1 else 0
      recoveryTime := if e.state = .stuck ∧ e.level = .high then e.recoveryTime + 1 else 0
      pulse := e.pulse.tick
      window := e.window.map (fun w => w + 1) }

/-- The level on the wire has differed from the recognised one for the filter time in force (R3; log 37). -/
def Engine.edgeDue (e : Engine) : Bool := e.wire != e.level && decide (e.timing.filter ≤ e.rawTime)

end Sys2Proof.Machine
end

