-- ==== Sys2Proof/Machine/Engines.lean ====
section
/-! DEFINITION. What the line engines do together with the scheduler, the receive director and the result writer: the
effects of edges and of time limits on a trunk (chapters 1, 2 and 5). -/

namespace Sys2Proof.Machine

/-- A trunk's engine changed. -/
def State.updateEngine (s : State) (t : Trunk) (f : Engine → Engine) : State := s.setEngine t (f (s.engine t))

/-! ### Ends of attempts and frames -/

/-- The attempt of a trunk is over with an outcome: its record is cleared, and the outcome is reported (R37). -/
def State.attemptEnds (s : State) (t : Trunk) (o : AttemptOutcome) : State :=
  match (s.engine t).attempt with
  | none => s
  | some a => (s.updateEngine t Engine.clearAttempt).outcome t a.index o

/-- The attempt ends SHAPE while SENDING: the line is released, the frame ends, the tally rises and the outcome is
reported (R20, R35). -/
def State.shapeInSending (s : State) (t : Trunk) : State :=
  ((s.updateEngine t Engine.endFrame).tally t Tally.addShape).attemptEnds t .shape

/-- The frame being followed is malformed: the director counts it, the frame ends, and foreign frame ended is
reported (R39, R120). -/
def State.abandonFrame (s : State) (t : Trunk) : State :=
  ((s.updateEngine t Engine.endFrame).malformedSeen t).select t

/-- The frame that another station sent has ended (R37, R40, R41). -/
def State.foreignFrameEnds (s : State) (t : Trunk) : State := (s.updateEngine t Engine.endFrame).select t

/-! ### Edges -/

/-- The engine after an edge that shows nothing beyond itself. -/
def Engine.plainEdge (e : Engine) (l : Level) : Engine := (e.noteEdge l).transmitterAfterEdge l

/-- The engine after the fall that showed an arbitration loss: it follows the winner's frame (R19, R36). -/
def Engine.afterLoss (e : Engine) : Engine :=
  let n := e.noteEdge .low
  { n with
    state := .receiving, pulse := .quiet, attempt := none, reply := .unset, window := none
    buffer := { n.buffer with own := false } }

/-- An arbitration loss at a fall (R36). -/
def State.lostAtFall (s : State) (t : Trunk) : State :=
  match (s.engine t).attempt with
  | none => s.updateEngine t Engine.afterLoss
  | some a => ((s.updateEngine t Engine.afterLoss).tally t Tally.addLoss).outcome t a.index .lost

/-- An edge on which the attempt ends SHAPE. -/
def State.shapeAtEdge (s : State) (t : Trunk) (l : Level) : State :=
  ((s.updateEngine t (fun e => e.noteEdge l)).shapeInSending t).updateEngine t (fun e => e.markCandidate l)

/-- An edge on which the foreign frame is judged malformed. -/
def State.malformedAtEdge (s : State) (t : Trunk) (l : Level) : State :=
  ((s.updateEngine t (fun e => e.noteEdge l)).abandonFrame t).updateEngine t (fun e => e.markCandidate l)

/-- The engine when the director has given its order for a frame with reply wanted 1 (R40, R41). -/
def Engine.openWindow (e : Engine) (o : AnswerOrder) : Engine :=
  match o with
  | .silent => { e with window := some 0 }
  | .accept => { e with window := some 0, state := .answering, answer := .accept }
  | .busy => { e with window := some 0, state := .answering, answer := .busy }

/-- The tail rise of a foreign frame that passes its check (R40, R125). -/
def State.goodFrameAtRise (s : State) (t : Trunk) : State :=
  let g := frameOfOctets (s.engine t).buffer.octets
  let s1 := s.updateEngine t (fun e => { e.noteEdge .high with buffer := Buffer.cleared false })
  let d := s1.decideFrame t g
  if g.replyWanted then d.1.updateEngine t (fun e => e.openWindow d.2) else d.1.foreignFrameEnds t

/-- The engine in the reply window of its own frame (R33). -/
def Engine.awaitReply (e : Engine) : Engine :=
  { e with
    state := .replyWait, window := some 0, reply := .waiting, pulse := .quiet, buffer := Buffer.cleared false }

/-- The tail rise of the engine's own frame (R33). -/
def State.tailAtRise (s : State) (t : Trunk) : State :=
  let s1 := (s.updateEngine t (fun e => e.noteEdge .high)).tally t Tally.addSent
  if (s.engine t).attempt.any Attempt.replyWanted then s1.updateEngine t Engine.awaitReply
  else (s1.updateEngine t Engine.endFrame).attemptEnds t .sent

/-- A recognised edge with all that it shows (R3, R18, R33, R36, R39, R40). -/
def State.takeEdge (s : State) (t : Trunk) (l : Level) : State :=
  match (s.engine t).judgeEdge l with
  | .plain => s.updateEngine t (fun e => e.plainEdge l)
  | .lost => s.lostAtFall t
  | .shape => s.shapeAtEdge t l
  | .malformed _ => s.malformedAtEdge t l
  | .goodFrame => s.goodFrameAtRise t
  | .tailReached => s.tailAtRise t

/-- What the next edge of a trunk's line would show: the line goes to the other level. -/
def Engine.nextVerdict (e : Engine) : Verdict := e.judgeEdge (otherLevel e.level)

/-- The next edge of a trunk's line can come, and it shows `v`. -/
def Engine.edgeShows (e : Engine) (v : Verdict) : Bool := e.edgePossible (otherLevel e.level) && e.nextVerdict == v

/-- The next edge can come, and the foreign frame is malformed on it. -/
def Engine.edgeMalformed (e : Engine) : Bool :=
  e.edgePossible (otherLevel e.level) &&
    match e.nextVerdict with
    | .malformed _ => true
    | .plain => false
    | .lost => false
    | .shape => false
    | .goodFrame => false
    | .tailReached => false

/-! ### Time limits -/

/-- The engine recognises a lead mark (R38). -/
def Engine.beginReceiving (e : Engine) : Engine :=
  { e with
    state := .receiving, buffer := Buffer.cleared false, holdClock := 0, window := none, candidate := false }

/-- The engine enters STUCK (R43). -/
def Engine.becomeStuck (e : Engine) : Engine :=
  { e with state := .stuck, recoveryTime := 0, holdClock := 0, candidate := false, pulse := .quiet }

/-- The engine leaves STUCK (R44). -/
def Engine.recover (e : Engine) : Engine := { e with state := e.restState, holdClock := 0, recoveryTime := 0 }

/-- The stuck event of a trunk (R43). -/
def State.stuckEvent (s : State) (t : Trunk) : State :=
  ((s.updateEngine t Engine.becomeStuck).tally t Tally.addStuck).raise .trunk

/-- The recovery of a trunk (R44). -/
def State.recoverTrunk (s : State) (t : Trunk) : State := (s.updateEngine t Engine.recover).raise .trunk

/-- The transmitter ends its mark or its gap (R4, R31, R32, R33). -/
def Engine.nextElement (e : Engine) : Engine :=
  match e.pulse with
  | .mark _ => { e with pulse := .rising 0 }
  | .gap => e.beginMark
  | .quiet => e
  | .rising _ => e
  | .answer _ => e
  | .answered => e

/-- The reply to the engine's frame is settled (R14, R34). -/
def State.settleReply (s : State) (t : Trunk) (o : AttemptOutcome) : State :=
  (if o = .shape then s.tally t Tally.addShape else s).attemptEnds t o

/-- In this state a trunk-off processing is kept back: in STANDBY, where nothing finishes by R169, in a part that follows
R169 there; R102 has it made at once (log 33). -/
def State.keepsTrunkOff (s : State) : Bool := s.session.state == .standby && Config.trunkOffWaits

/-- The scheduler takes a trunk-off report: it makes the trunk-off processing (R102), or keeps it back in STANDBY (R169;
log 33); frozen in FAULTED it does nothing (R105). -/
def State.takeOffReport (s : State) (t : Trunk) : State :=
  if s.schedulerLive then
    if s.keepsTrunkOff then s.setOffOwed t true else s.trunkOffProcessing t
  else s

/-- The engine enters OFF by a RELOAD, and reports trunk off (R37, R46). -/
def State.trunkGoesOff (s : State) (t : Trunk) : State := (s.updateEngine t Engine.enterOff).takeOffReport t

/-- Pending timing taken by an engine (R47); in FAULTED the armed entry keeps its values (R105; log 34). -/
def State.takeTiming (s : State) (t : Trunk) : State :=
  s.updateEngine t (fun e => if s.session.state = .faulted then { e.takeTiming with armed := e.armed } else e.takeTiming)

/-! ### The start of a lead (R29, R30, R89, R90) -/

/-- The attempt record formed from an entry (R30). -/
def State.formAttempt (s : State) (t : Trunk) (i : Nat) (c : SendCopy) : Attempt :=
  let own := (s.director.listen.get t).own
  let toggle := s.toggle t c.dest
  let o1 := octet1 c.cls c.dest
  let o2 := octet2 own toggle c.replyWanted
  let o3 := octet3 c.length c.channel
  { index := i, cls := c.cls, dest := c.dest, channel := c.channel, length := c.length
    replyWanted := c.replyWanted, payload := c.payload, source := own, toggle := toggle
    o1 := o1, o2 := o2, o3 := o3, check := checkOctet ([o1, o2, o3] ++ c.payload), position := 0 }

/-- The engine at the start of its lead: it pulls low, and the armed entry is cleared (R30, R31). -/
def Engine.beginLead (e : Engine) (a : Attempt) : Engine :=
  { e with
    state := .sending .lead, pulse := .mark 0, holdClock := 0, buffer := Buffer.cleared true, armed := none
    attempt := some a, reply := .unset, candidate := false }

/-- An entry whose attempt has started (R90). -/
def Entry.started (e : Entry) : Entry := { e with condition := .inFlight, attempts := sat255 e.attempts }

/-- A lead starts for an entry (R30, R90). -/
def State.startLead (s : State) (t : Trunk) (e : Entry) : State :=
  (s.updateEntry t e.index Entry.started).updateEngine t (fun g => g.beginLead (s.formAttempt t e.index e.copy))

/-- The armed entry of a trunk, as its pending list holds it. -/
def State.armedEntry (s : State) (t : Trunk) : Option Entry :=
  match (s.engine t).armed with
  | none => none
  | some a => s.findEntry t a.index

/-- The engine offers its armed entry: the scheduler confirms it while it is eligible (R89). -/
def State.confirmed (s : State) (t : Trunk) : Option Entry :=
  match s.armedEntry t with
  | none => none
  | some e => if s.eligible t e then some e else none

/-- Hold expiry is due: the hold clock has reached the hold time in a RUNNING session (R29). -/
def State.holdDue (s : State) (t : Trunk) : Bool := s.session.state == .running && (s.engine t).holdReached

/-- Hold expiry: the armed entry starts its lead, or it is withdrawn and another is selected, which is offered at once
when the hold clock has already reached its hold time (R29, R89). -/
def State.holdExpires (s : State) (t : Trunk) : State :=
  match s.confirmed t with
  | some e => s.startLead t e
  | none =>
    let s1 := (s.withdraw t).select t
    if s1.holdDue t then
      match s1.confirmed t with
      | some e => s1.startLead t e
      | none => s1
    else s1

end Sys2Proof.Machine
end

