-- ==== Sys2Proof/Machine/Sweeper.lean ====
section
/-! DEFINITION. The table sweeper (chapter 4): when a sweep starts, its order, its decisions on what its reads return,
its claims, its cut. -/

namespace Sys2Proof.Machine

/-! ### Starts and ends of a sweep -/

/-- The sweep in progress replaced. -/
def State.setSweep (s : State) (w : Option Sweep) : State := s.setSweeper { s.sweeper with sweep := w }

/-- A sweep starts: its send-side pass begins at the claim cursor, and the timer returns to 0 (R66, R69). -/
def State.startSweep (s : State) : State :=
  s.setSweeper
    { s.sweeper with
      timer := 0, target := s.sweeper.period, timerRuns := true
      sweep := some { start := s.sweeper.cursor, index := s.sweeper.cursor, stage := .word0, cut := false } }

/-- A sweep is asked for: it starts, or the again request is set when one is in progress (R66, R67). -/
def State.askSweep (s : State) : State :=
  if s.sweeper.sweep.isSome then s.setSweeper { s.sweeper with again := true } else s.startSweep

/-- The session sweeps: RUNNING or PAUSED, outside the resume processing (R66, R67). -/
def State.sweeping (s : State) : Bool :=
  (s.session.state == .running || s.session.state == .paused) && s.session.resumeOwed == none

/-- The sweep timer has reached its period (R66). -/
def State.timerExpired (s : State) : Bool :=
  s.sweeping && s.sweeper.timerRuns && decide (s.sweeper.target ≤ s.sweeper.timer)

/-- The sweep ends: the count rises and the end is reported to the header writer; a set again request is cleared and
starts a new sweep (R71). -/
def State.sweepEnds (s : State) : State :=
  let c := s.sweeper.count + 1
  let s1 := (s.setSweeper { s.sweeper with count := c, sweep := none, again := false }).setHeader
    (s.header ++ [.sweepEnd s.now c])
  if s.sweeper.again then s1.startSweep else s1

/-- The index after `i` in a sweep whose send-side pass began at `start`; none at the end (R69). -/
def nextIndex (n f start i : Nat) : Option Nat :=
  if i < f then
    let k := if i + 1 = f then 0 else i + 1
    if k = start then (if f < n then some f else none) else some k
  else if i + 1 < n then some (i + 1)
  else none

/-- The handling of the index in hand ends (R70, R71); a cut sweep ends there without a report (R79). -/
def State.indexHandled (s : State) : State :=
  match s.sweeper.sweep with
  | none => s
  | some w =>
    if w.cut then s.setSweep none
    else
      match nextIndex s.session.n s.session.f w.start w.index with
      | some i => s.setSweep (some { w with index := i, stage := .word0 })
      | none => s.sweepEnds

/-- Sweeping stops: the timer stops, the again request is cleared and the sweep in progress is cut (R79). -/
def State.cutSweep (s : State) : State :=
  s.setSweeper
    { s.sweeper with
      timerRuns := false, again := false, sweep := s.sweeper.sweep.map (fun w => { w with cut := true }) }

/-- The sweep in hand waits for another access. -/
def State.setStage (s : State) (g : SweepStage) : State :=
  s.setSweep (s.sweeper.sweep.map (fun w => { w with stage := g }))

/-! ### Envelopes that are not claimed -/

/-- A POSTED or OFFERED index is rejected: held, and handed to the completion queue (R70, R77). -/
def State.rejectIndex (s : State) (i : Nat) (reason : ResultCode) : State := (s.handRejected i reason).hold i

/-- The results of a POSTED envelope finished CANCELLED before a claim (R72). -/
def cancelledBeforeClaim (now : Word) : SendResult :=
  { outcome := .cancelled, last := none, attempts := 0, losses := 0, stamp := now, repeats := 0, overruns := 0 }

/-- A POSTED index is finished CANCELLED before a claim (R72, R77). -/
def State.cancelIndex (s : State) (i : Nat) : State := (s.handDone i (cancelledBeforeClaim s.now)).hold i

/-- A cancel for a held index goes to the block that holds its side (R76). -/
def State.passCancel (s : State) (i : Nat) : State :=
  if i < s.session.f then s.sendCancel i else s.receiveCancel i

/-! ### Decisions on the reads -/

/-- Word 0 of a send-side index that is not held (R72, R78). -/
def State.sendWord0 (s : State) (i : Nat) (bs : List Byte) : State :=
  if byteAt bs 0 = offered then (s.rejectIndex i .wrongSide).indexHandled
  else if byteAt bs 0 = posted then
    if cancelRequested bs then (s.cancelIndex i).indexHandled
    else if s.session.state = .paused then s.indexHandled
    else s.setStage .envelope
  else s.indexHandled

/-- Word 0 of a receive-side index that is not held (R75). -/
def State.receiveWord0 (s : State) (i : Nat) (bs : List Byte) : State :=
  if byteAt bs 0 = posted then (s.rejectIndex i .wrongSide).indexHandled
  else if byteAt bs 0 = offered then
    if cancelRequested bs then (s.rejectIndex i .cancelled).indexHandled else s.setStage .word1
  else s.indexHandled

/-- Word 0 of the index in hand has returned (R72, R75, R76). -/
def State.word0Read (s : State) (bs : List Byte) : State :=
  match s.sweeper.sweep with
  | none => s
  | some w =>
    if s.isHeld w.index then (if cancelRequested bs then s.passCancel w.index else s).indexHandled
    else if w.index < s.session.f then s.sendWord0 w.index bs
    else s.receiveWord0 w.index bs

/-- The mode of a trunk as the last accepted START or RELOAD gave it is OFF (R73). -/
def State.trunkIsOff (s : State) (t : Trunk) : Bool := (s.engine t).mode == .off || (s.engine t).pendingOff

/-- The first test of R73 that a send envelope fails. -/
def State.failedTest (s : State) (bs : List Byte) : Option ResultCode :=
  let e := sendFields bs
  if checkByte bs ≠ byteAt bs 11 then some .badCheck
  else if !e.valid then some .badField
  else if e.dest = (s.director.listen.get e.trunkNo).own then some .selfAddressed
  else if s.trunkIsOff e.trunkNo then some .trunkOff
  else none

/-- Places of the repeat table that are taken, a reserved one included (R108). -/
def State.repeatsTaken (s : State) : Nat :=
  s.sched.repeats.length + (if s.sweeper.reservation = some .repeatTable then 1 else 0)

/-- A place is reserved, and the claim write for an envelope of a trunk is asked for (R74); an earlier trunk-off
processing of the trunk does not touch this claim (R102; log 35). -/
def State.reserve (s : State) (t : Trunk) (p : Place) (c : Claim) : State :=
  ((s.setOffDone t false).setSweeper { s.sweeper with reservation := some p }).setStage (.claim c)

/-- The room test for an envelope that has passed R73 (R74, R108). -/
def State.roomTest (s : State) (i : Nat) (e : SendFields) : State :=
  if e.repeats then
    if s.repeatsTaken < Config.repeatPlaces then s.reserve e.trunkNo .repeatTable (.repeating e.copy e.period)
    else (s.rejectIndex i .repeatFull).indexHandled
  else if s.hasPlace e.trunkNo then s.reserve e.trunkNo (.list e.trunkNo) (.send e.copy)
  else s.indexHandled

/-- A whole envelope has returned (R73; in PAUSED by R78, log 19). -/
def State.envelopeRead (s : State) (bs : List Byte) : State :=
  match s.sweeper.sweep with
  | none => s
  | some w =>
    if byteAt bs 0 ≠ posted then s.indexHandled
    else if cancelRequested bs then (s.cancelIndex w.index).indexHandled
    else if s.session.state = .paused then s.indexHandled
    else
      match s.failedTest bs with
      | some reason => (s.rejectIndex w.index reason).indexHandled
      | none => s.roomTest w.index (sendFields bs)

/-- Word 1 has returned; byte 4 is its first byte (R75). -/
def State.word1Read (s : State) (bs : List Byte) : State :=
  match s.sweeper.sweep with
  | none => s
  | some w =>
    if maskValid (byteAt bs 0) then
      if s.director.receiveList.length < Config.receivePlaces then s.setStage (.claim (.receive (byteAt bs 0)))
      else s.indexHandled
    else (s.rejectIndex w.index .badField).indexHandled

/-! ### Claims (R74, R75) -/

/-- The send-side index after `i`. -/
def nextCursor (f i : Nat) : Nat := if i + 1 = f then 0 else i + 1

/-- A send-side claim: the held bit, the cursor and the end of the reservation (R74). -/
def State.claimSend (s : State) (i : Nat) : State :=
  let s1 := s.hold i
  s1.setSweeper { s1.sweeper with cursor := nextCursor s.session.f i, reservation := none }

/-- The claim write of the index in hand has completed (R74, R75). -/
def State.claimWritten (s : State) : State :=
  match s.sweeper.sweep with
  | none => s
  | some w =>
    match w.stage with
    | .claim (.send copy) => ((s.claimSend w.index).joinEntry w.index copy false).indexHandled
    | .claim (.repeating copy period) => ((s.claimSend w.index).joinRepeat w.index copy period).indexHandled
    | .claim (.receive mask) =>
      let s1 := s.hold w.index
      ((s1.setReceiveList (s1.director.receiveList ++ [{ index := w.index, mask := mask }])).assignIfRunning).indexHandled
    | .word0 => s
    | .envelope => s
    | .word1 => s

end Sys2Proof.Machine
end

