-- ==== Sys2Proof/Machine/Session.lean ====
section
/-! DEFINITION. The session controller (chapters 9 and 10): the decision on a command, what each accepted command does,
START and RELOAD from the header read, the ends of SETTLING, RESUME and STOP, and reset. -/

namespace Sys2Proof.Machine

/-- The header writer takes one more unit, behind those it holds (R148). -/
def State.askHeader (s : State) (u : HeaderUnit) : State := s.setHeader (s.header ++ [u])

/-! ### The decision on a command (R155) -/

/-- A command is refused with BUSY in this state (R155 point 3). -/
def State.commandBusy (s : State) : Bool :=
  s.session.state == .settling || s.session.state == .stopping
    || s.session.inProgress == some .start || s.session.inProgress == some .reload
    || s.session.inProgress == some .resume

/-- The table of R155: the states that allow a command. RESET is allowed in every state (R163). -/
def Command.allowedIn (c : Command) (x : SessionState) : Bool :=
  match c, x with
  | .start, .unset => true
  | .pause, .running => true
  | .resume, .paused => true
  | .resume, .standby => true
  | .standby, .running => true
  | .standby, .paused => true
  | .stop, .running => true
  | .stop, .paused => true
  | .stop, .standby => true
  | .reload, .running => true
  | .reload, .paused => true
  | .reset, _ => true
  | _, _ => false

/-- AREA_BASE is a multiple of 256 (R49). -/
def State.baseAligned (s : State) : Bool := s.regs.areaBase.toNat % 256 == 0

/-- Why a command other than RESET is refused now, if it is (R155). -/
def State.refusal (s : State) (c : Command) : Option RefusalReason :=
  if s.commandBusy then some .busy
  else if !c.allowedIn s.session.state then some .wrongState
  else if c == .start && !s.baseAligned then some .baseMisaligned
  else none

/-- A command is refused, or it is accepted and acts (R155). -/
def State.decideCommand (s : State) (c : Command) (accepted : State → State) : State :=
  match s.refusal c with
  | some reason => s.refuse c.code reason
  | none => accepted s

/-! ### Accepted commands -/

/-- START is accepted: the session base is copied, and the header reads are asked for (R154, R156). -/
def State.acceptStart (s : State) : State :=
  (((s.setSession { s.session with base := s.regs.areaBase }).askHeader .startReads).beginCommand .start)

/-- PAUSE is accepted (R158). -/
def State.acceptPause (s : State) : State := (s.enterSession .paused).finishCommand .pause

/-- RESUME from PAUSED is accepted (R158). -/
def State.resumeFromPaused (s : State) : State := (s.enterSession .running).finishCommand .resume

/-- The WAKE line is deasserted (R170). -/
def State.dropWake (s : State) : State := s.setStandby { s.standby with wake := false }

/-- Step 1 of the resume processing begins: it owes what stands in the completion queue (R172). -/
def State.oweResults (s : State) : State :=
  s.setSession { s.session with resumeOwed := some s.results.queue.length }

/-- RESUME from STANDBY is accepted (R171): marked entries finish, then what trunk-off processings STANDBY kept back end
(log 33). -/
def State.resumeFromStandby (s : State) : State :=
  (finishMarked s.marked ((s.enterSession .running).dropWake.beginCommand .resume)).owedTrunksOff.oweResults

/-- RESUME is accepted. -/
def State.acceptResume (s : State) : State :=
  if s.session.state = .standby then s.resumeFromStandby else s.resumeFromPaused

/-- STANDBY is accepted (R159, R167). -/
def State.acceptStandby (s : State) : State := ((s.enterSession .settling).cutSweep).beginCommand .standby

/-- The trunks without an attempt in flight have their STOP processing (R104, R161); that trunk 0 comes first is the
model's choice (log 21). -/
def State.stopClearTrunks (s : State) : State :=
  (((s.stopIfClear 0).stopIfClear 1).stopIfClear 2).stopIfClear 3

/-- STOP is accepted (R161). From STANDBY the marked entries fix the order up to the last of them (R97, R104, R173;
log 21). -/
def State.acceptStop (s : State) : State :=
  let s1 := (((((s.enterSession .stopping).beginCommand .stop).dropWake).cutSweep).dropOwedOff).closeQueue
  (if s.session.state = .standby then finishAtStop s.stopOrder s1 else s1).stopClearTrunks

/-- RELOAD is accepted (R160). -/
def State.acceptReload (s : State) : State := (s.askHeader .reloadReads).beginCommand .reload

/-! ### A header that is refused (R51, R156, R160) -/

/-- The command in progress is refused with AREA_INVALID, and FAULT_INFO takes the offset of the bad field; the read-back
shows it, also after a refused write (log 23). -/
def State.areaInvalid (s : State) (c : Command) (offset : Nat) : State :=
  ((s.setRegs { s.regs with faultInfo := BitVec.ofNat 32 offset }).setSession
    { s.session with inProgress := none }).refuse c.code .areaInvalid

/-! ### START (R157) -/

/-- The engine takes the timing of its record at START. -/
def Engine.loadTiming (e : Engine) (v : Timing) : Engine := { e with timing := v, pendingTiming := none }

/-- The header as the START reads return it. -/
def startHeader (bs : List Byte) : HeaderBytes := { first := 0, bytes := bs }

/-- What each trunk has, as the accepted records give it. -/
def Settings.each {α : Type} (v : Settings) (f : TrunkRecord → α) : Four α := Four.of (fun t => f (v.records.get t))

/-- The session controller at the first part of START. -/
def Session.started (c : Session) (h : HeaderBytes) : Session :=
  { c with
    n := h.half 0x004, f := h.half 0x006, faultKind := .none, number := c.number + 1
    windowLength := (settings h).windowLength, startModes := (settings h).each TrunkRecord.mode }

/-- The first part of START: every block takes its values (R157). -/
def State.startFirstPart (s : State) (h : HeaderBytes) : State :=
  let v := settings h
  ((((((((s.setSession (s.session.started h)).setSweeper { Sweeper.reset with period := v.period }).setSched
    { Scheduler.reset with windowMode := v.each TrunkRecord.windowMode, backoff := v.each TrunkRecord.backoff }).setDirector
    { Director.reset with listen := v.each TrunkRecord.listen }).setResults ResultWriter.reset).setEngines
    (Four.of (fun t => (s.engine t).loadTiming (v.records.get t).timing))).setStandby
    { s.standby with wakeEnable := v.each TrunkRecord.wakeEnable }).askHeader .startUnit)

/-- The START reads have returned (R156, R157). -/
def State.startRead (s : State) (bs : List Byte) : State :=
  match firstBad (startChecks s.session.base (startHeader bs)) with
  | some o => s.areaInvalid .start o
  | none => s.startFirstPart (startHeader bs)

/-- An engine enters the mode of its record (R26, R157). -/
def Engine.enterMode (e : Engine) (m : Mode) : Engine :=
  match m with
  | .off => e
  | .listen => e.enterFromOff .listen
  | .active => e.enterFromOff .active

/-- The START unit has completed: the second part of START (R157). -/
def State.startUnitWritten (s : State) : State :=
  let s1 := s.setSession { s.session with deviceTime := 0, micros := 0, state := .running }
  let s2 := s1.setEngines (Four.of (fun t => (s1.engine t).enterMode (s1.session.startModes.get t)))
  s2.startSweep.finishCommand .start

/-! ### RELOAD (R46, R47, R68, R101, R123, R134, R160, R166, R170) -/

/-- The header as the RELOAD reads return it. -/
def reloadHeader (bs : List Byte) : HeaderBytes := { first := 0x008, bytes := bs }

/-- New timing values are stored as pending, and taken at once where R47 allows it. -/
def Engine.reloadTiming (e : Engine) (v : Timing) : Engine :=
  if v = e.timing ∧ e.pendingTiming = none then e
  else
    let p := { e with pendingTiming := some v }
    if p.timingDue || p.state == .off then p.takeTiming else p

/-- The mode of a record that names LISTEN or ACTIVE, for an engine that is not OFF (R46). -/
def Engine.changeMode (e : Engine) (m : Mode) : Engine := { e with mode := m, pendingOff := false }

/-- The engine acts by its old mode and the new one (R46); an armed entry is withdrawn where the table says so. -/
def State.reloadMode (s : State) (t : Trunk) (m : Mode) : State :=
  match (s.engine t).mode, m with
  | .off, .off => s
  | .off, .listen => s.updateEngine t (fun e => e.enterFromOff .listen)
  | .off, .active => s.updateEngine t (fun e => e.enterFromOff .active)
  | _, .off => (s.withdraw t).updateEngine t (fun e => { e with pendingOff := true })
  | _, .listen => (s.withdraw t).updateEngine t (fun e => e.changeMode .listen)
  | _, .active => s.updateEngine t (fun e => e.changeMode .active)

/-- The listen table is loaded; a change of an address makes the duplicate table invalid (R123, R134). -/
def State.reloadListen (s : State) (t : Trunk) (l : Listen) : State :=
  let old := s.director.listen.get t
  s.setDirector
    { s.director with
      listen := s.director.listen.set t l
      dups :=
        if old.own = l.own ∧ old.groups = l.groups then s.director.dups
        else s.director.dups.set t noDuplicates }

/-- The window-mode flag and the busy backoff are taken (R101). -/
def State.reloadSched (s : State) (t : Trunk) (r : TrunkRecord) : State :=
  s.setSched
    { s.sched with
      windowMode := s.sched.windowMode.set t r.windowMode, backoff := s.sched.backoff.set t r.backoff }

/-- A RELOAD that calls for a selection on a trunk: the mode becomes ACTIVE, pending OFF is cleared, or the
window-mode flag changes (R88). -/
def State.reloadSelects (s : State) (t : Trunk) (r : TrunkRecord) : Bool :=
  let e := s.engine t
  (r.mode == .active && e.mode != .active) || (r.mode != .off && e.pendingOff)
    || r.windowMode != s.sched.windowMode.get t

/-- One trunk takes its new record. -/
def State.reloadTrunk (s : State) (t : Trunk) (r : TrunkRecord) : State :=
  let s1 :=
    (((s.updateEngine t (fun e => e.reloadTiming r.timing)).reloadMode t r.mode).reloadListen t r.listen).reloadSched t r
  if s.reloadSelects t r then s1.select t else s1

/-- An engine that has nothing to finish enters OFF at the RELOAD itself (R46). -/
def State.offAtOnce (s : State) (t : Trunk) : State := if (s.engine t).offDue then s.trunkGoesOff t else s

/-- The settings of an accepted RELOAD are handed to their owners (R160). -/
def State.handSettings (s : State) (v : Settings) : State :=
  let s1 := ((s.setSweeper { s.sweeper with period := v.period }).setSession
    { s.session with windowLength := v.windowLength }).setStandby
    { s.standby with wakeEnable := v.each TrunkRecord.wakeEnable }
  (((s1.reloadTrunk 0 (v.records.get 0)).reloadTrunk 1 (v.records.get 1)).reloadTrunk 2 (v.records.get 2)).reloadTrunk
    3 (v.records.get 3)

/-- The RELOAD reads have returned (R160): the settings are handed over, RELOAD is done, and the engines that R46 sends
OFF at once enter OFF. -/
def State.reloadRead (s : State) (bs : List Byte) : State :=
  match firstBad (commonChecks (reloadHeader bs)) with
  | some o => s.areaInvalid .reload o
  | none =>
    ((((s.handSettings (settings (reloadHeader bs))).finishCommand .reload).offAtOnce 0).offAtOnce 1).offAtOnce
      2 |>.offAtOnce 3

/-! ### The end of SETTLING (R168) -/

/-- The port holds a unit of the sweeper, or an index is still in hand. -/
def State.sweeperBusy (s : State) : Bool := s.sweeper.sweep.isSome

/-- No attempt is in flight on any trunk. -/
def State.noneInFlight (s : State) : Bool := trunks.all (fun t => !s.inFlight t)

/-- SETTLING can end (R168). -/
def State.settled (s : State) : Bool :=
  s.session.state == .settling && !s.sweeperBusy && s.noneInFlight && s.results.queue.isEmpty
    && s.director.queue.all (fun q => q.slot.isNone) && s.header.isEmpty && s.port.unit.isNone

/-- SETTLING ends: the session enters STANDBY (R159, R168). -/
def State.enterStandby (s : State) : State := (s.completeCheck.enterSession .standby).finishCommand .standby

/-! ### The end of the resume processing (R172) -/

/-- Step 1 of the resume processing owes nothing more. -/
def State.resultsResumed (s : State) : Bool := s.session.state == .running && s.session.resumeOwed == some 0

/-- Steps 2 and 3 of the resume processing begin (R172). -/
def State.endResume (s : State) : State :=
  (((s.setSession { s.session with resumeOwed := none }).assignSlots).startSweep).finishCommand .resume

/-! ### The end of STOPPING (R162) -/

/-- The final unit of STOP is asked for, or in hand. -/
def State.finalAsked (s : State) : Bool :=
  s.header.any (fun u =>
    match u with
    | .finalUnit _ _ => true
    | .startReads => false
    | .reloadReads => false
    | .startUnit => false
    | .sweepEnd _ _ => false)

/-- STOPPING can end (R162). -/
def State.stopped (s : State) : Bool :=
  s.session.state == .stopping && trunks.all (fun t => s.sched.stopDone.get t) && s.sched.repeats.isEmpty
    && !s.sweeperBusy && s.results.queue.isEmpty && s.director.queue.isEmpty && s.director.receiveList.isEmpty
    && !s.finalAsked

/-- The final sweep-end unit is asked for (R162). -/
def State.askFinal (s : State) : State := s.askHeader (.finalUnit s.now s.sweeper.count)

/-- The final unit has completed: STOP is done (R48, R162). -/
def State.finishStop (s : State) : State :=
  let s1 := s.completeCheck
  ((s1.setEngines (Four.of (fun t => (s1.engine t).stopOff))).enterSession .unset).finishCommand .stop

/-! ### The sync window (R166) -/

/-- A rising edge on SYNC opens or restarts the window, in us. -/
def State.openSyncWindow (s : State) : State :=
  s.setSession { s.session with window := some (10 * s.session.windowLength) }

/-- The selection that an opening or a restart is for a trunk in window mode (R88). In STANDBY nothing acts on the window
that an edge opens (R166; log 38). -/
def State.selectInWindow (s : State) (t : Trunk) : State :=
  if s.sched.windowMode.get t && s.session.state != .standby then s.select t else s

/-- The open window has no time left. -/
def State.windowSpent (s : State) : Bool := s.session.window == some 0

/-- The window closes. -/
def State.closeWindow (s : State) : State := s.setSession { s.session with window := none }

/-! ### Memory that a cut write may have changed (R180, R181; log 10) -/

/-- The bytes of an access that failed or was abandoned take their new values or keep the old ones; a read changes
nothing. -/
def State.landPerhaps (s : State) (a : Access) : State :=
  match a.op with
  | .read _ => s
  | .writeBurst bs => (s.setMemory (Memory.writeBytesPerhaps s.free s.memory a.addr 0 bs)).setFree (s.free + 1)
  | .byteWrite bs => (s.setMemory (Memory.writeBytesPerhaps s.free s.memory a.addr 0 bs)).setFree (s.free + 1)

/-! ### RESET and power-on reset (R163, R164, R181) -/

/-- The port after RESET: the access on the bus, if any, is waited for and then discarded (R181). -/
def Port.afterReset (p : Port) : Port :=
  match p.unit with
  | none => p
  | some u => { unit := none, abandoned := some { access := u.access, timer := u.timer } }

/-- The session controller after RESET (R163). -/
def Session.afterReset (c : Session) : Session :=
  { Session.reset with faultKind := c.faultKind, number := c.number }

/-- Every block takes its RESET values; the port is left to the caller (R48, R81, R106, R118, R138, R144, R163). -/
def State.resetBlocks (s : State) : State :=
  { s with
    regs := { s.regs with intCause := 0 }
    session := s.session.afterReset
    sweeper := Sweeper.reset
    sched := Scheduler.reset
    engines := Four.of (fun t => (s.engine t).afterReset)
    director := Director.reset
    results := ResultWriter.reset
    header := []
    standby := { wakeEnable := Four.all false, wake := false } }

/-- RESET (R163). -/
def State.resetCommand (s : State) : State :=
  ((s.resetBlocks).setPort s.port.afterReset).show Command.reset.code .done .none

/-- The write on the bus at power-on reset may have reached memory, and nothing is outstanding after it (R181). -/
def State.dropAccess (s : State) : State :=
  let s1 :=
    match s.port.unit with
    | some u => s.landPerhaps u.access
    | none =>
      match s.port.abandoned with
      | some a => s.landPerhaps a.access
      | none => s
  s1.setPort { unit := none, abandoned := none }

/-- Power-on reset (R164). -/
def State.powerOn (s : State) : State :=
  let s1 := s.dropAccess.resetBlocks
  (s1.setRegs Registers.reset).setSession Session.reset

end Sys2Proof.Machine
end

