-- ==== Sys2Proof/Machine/Port.lean ====
section
/-! DEFINITION. The memory port (chapter 11) with the units of its four claimants: what each asks for, the grant, the
completion of an access, faults, and the end of an abandoned access. -/

namespace Sys2Proof.Machine

/-! ### Accesses of a completion (R62, R141, R176) -/

/-- Position of completion `c` in the recent list (R62). -/
def recentPosition (c : Half) : Nat := (c - 1).toNat % 8

/-- The write of one state byte: byte 0 of an envelope and no other (R62). -/
def State.stateAccess (s : State) (role : Role) (i : Nat) (value : Byte) : Access :=
  { role := role, addr := s.envelopeAddr i 0, op := .byteWrite [value] }

/-- State byte, recent-list position and count of completion `c` (R62). -/
def State.completionTail (s : State) (i : Nat) (c : Half) (value : Byte) : List Access :=
  [ s.stateAccess .stateWrite i value,
    { role := .part, addr := s.headerAddr (0x010 + 2 * recentPosition c), op := .byteWrite (halfBytes (BitVec.ofNat 16 i)) },
    { role := .countWrite, addr := s.headerAddr 0x00C, op := .byteWrite (halfBytes c) } ]

/-- The burst over bytes 40 to 51 of a send envelope (R59). -/
def State.resultAccess (s : State) (role : Role) (i : Nat) (r : SendResult) : Access :=
  { role := role, addr := s.envelopeAddr i 40, op := .writeBurst r.bytes }

/-- The DONE unit. -/
def State.doneUnit (s : State) (i : Nat) (r : SendResult) (c : Half) : List Access :=
  s.resultAccess .part i r :: s.completionTail i c doneState

/-- The REJECTED unit. -/
def State.rejectedUnit (s : State) (i : Nat) (reason : ResultCode) (c : Half) : List Access :=
  { role := .part, addr := s.envelopeAddr i 40, op := .byteWrite [BitVec.ofNat 8 reason.code] }
    :: s.completionTail i c rejectedState

/-- The FILLED unit. -/
def State.filledUnit (s : State) (i : Nat) (q : QueuedFrame) (c : Half) : List Access :=
  { role := .part, addr := s.envelopeAddr i 5, op := .byteWrite q.firstBytes }
    :: { role := .part, addr := s.envelopeAddr i 8, op := .writeBurst q.laterBytes }
    :: s.completionTail i c filledState

/-! ### Accesses of the header writer (R148, R156, R160, R176) -/

/-- The tallies of a trunk pair, 64 bytes of the tally block. -/
def State.tallyBytes (s : State) (t u : Trunk) : List Byte :=
  (s.results.tallies.get t).bytes ++ (s.results.tallies.get u).bytes

/-- The sweep-end unit and the final unit of STOP: the tallies as they stand at the grant, then device time and sweep
count as the report carried them. -/
def State.sweepEndAccesses (s : State) (role : Role) (time count : Word) : List Access :=
  [ { role := .part, addr := s.headerAddr 0x080, op := .writeBurst (s.tallyBytes 0 1) },
    { role := .part, addr := s.headerAddr 0x0C0, op := .writeBurst (s.tallyBytes 2 3) },
    { role := role, addr := s.headerAddr 0x060, op := .writeBurst (wordBytes time ++ wordBytes count) } ]

/-- Completion count, session number and recent list, as the START unit writes them. -/
def State.startUnitBytes (s : State) : List Byte :=
  halfBytes s.results.countCopy ++ halfBytes s.session.number ++ s.results.recent.toList.flatMap halfBytes

/-- The accesses of a header unit. -/
def State.headerAccesses (s : State) : HeaderUnit → List Access
  | .startReads =>
    [ { role := .part, addr := s.headerAddr 0x000, op := .read 16 },
      { role := .startReads, addr := s.headerAddr 0x040, op := .read 8 } ]
  | .reloadReads =>
    [ { role := .part, addr := s.headerAddr 0x008, op := .read 16 },
      { role := .reloadReads, addr := s.headerAddr 0x048, op := .read 6 } ]
  | .startUnit => [ { role := .startUnit, addr := s.headerAddr 0x00C, op := .writeBurst s.startUnitBytes } ]
  | .sweepEnd time count => s.sweepEndAccesses .sweepEnd time count
  | .finalUnit time count => s.sweepEndAccesses .finalUnit time count

/-! ### Accesses of the sweeper (R70, R176) -/

/-- The access that the handling of an index waits for. -/
def State.sweepAccess (s : State) (i : Nat) : SweepStage → Access
  | .word0 => { role := .word0, addr := s.envelopeAddr i 0, op := .read 1 }
  | .envelope => { role := .envelope, addr := s.envelopeAddr i 0, op := .read 16 }
  | .word1 => { role := .word1, addr := s.envelopeAddr i 4, op := .read 1 }
  | .claim _ => s.stateAccess .claim i heldState

/-! ### What each claimant asks for, and the grant (R177) -/

/-- A unit that a claimant asks for. -/
structure Request where
  kind : UnitKind
  first : Access
  rest : List Access
  deriving DecidableEq, Repr

/-- A unit of these accesses; a unit has at least one. -/
def requestOf (k : UnitKind) : List Access → Option Request
  | [] => none
  | a :: rest => some { kind := k, first := a, rest := rest }

/-- The result writer and the delivery writer write in these states (R132, R144). -/
def State.writersLive (s : State) : Bool :=
  match s.session.state with
  | .running | .paused | .settling | .stopping => true
  | .unset | .standby | .faulted => false

/-- The number that the next completion takes (R141). -/
def State.nextNumber (s : State) : Half := s.results.countCopy + 1

/-- What the result writer asks for: the oldest entry of the completion queue (R141). -/
def State.resultRequest (s : State) : Option Request :=
  if s.writersLive then
    match s.results.queue with
    | [] => none
    | .done i r :: _ => requestOf (.completion i s.nextNumber) (s.doneUnit i r s.nextNumber)
    | .rejected i reason :: _ => requestOf (.completion i s.nextNumber) (s.rejectedUnit i reason s.nextNumber)
    | .round i r :: _ => requestOf (.roundResult i) [s.resultAccess .roundResult i r]
  else none

/-- In STOPPING, when no frame with a slot remains, the delivery writer gives back the receive list (R136). -/
def State.giveBackRequest (s : State) : Option Request :=
  if s.session.state = .stopping then
    match s.director.receiveList with
    | [] => none
    | o :: _ => requestOf (.giveBack o.index) [s.stateAccess .giveBack o.index offered]
  else none

/-- What the delivery writer asks for: the oldest frame that holds a slot (R132), or a give-back (R136). R132 does not say
when the writer takes its frame: that it takes the oldest at the grant, also where an older frame has gained a slot while
the writer waited for the port, is the model's choice (log 39). -/
def State.deliveryRequest (s : State) : Option Request :=
  if s.writersLive then
    match s.director.nextWrite with
    | none => s.giveBackRequest
    | some q =>
      match q.slot with
      | none => none
      | some i => requestOf (.filled i s.nextNumber) (s.filledUnit i q s.nextNumber)
  else none

/-- What the header writer asks for: its oldest unit (R148). -/
def State.headerRequest (s : State) : Option Request :=
  match s.header with
  | [] => none
  | u :: _ => requestOf (.header u) (s.headerAccesses u)

/-- What the sweeper asks for: the access that the index in hand waits for (R70). -/
def State.sweeperRequest (s : State) : Option Request :=
  match s.sweeper.sweep with
  | none => none
  | some w => requestOf .sweeper [s.sweepAccess w.index w.stage]

/-- The first waiting claimant in the order of R177. -/
def State.nextRequest (s : State) : Option Request :=
  match s.resultRequest with
  | some r => some r
  | none =>
    match s.deliveryRequest with
    | some r => some r
    | none =>
      match s.headerRequest with
      | some r => some r
      | none => s.sweeperRequest

/-- The port can grant: it holds no unit, waits for no abandoned access, and is neither idle in STANDBY nor stopped in
FAULTED (R169, R177, R179, R181). -/
def State.portFree (s : State) : Bool :=
  s.port.unit.isNone && s.port.abandoned.isNone && s.session.state != .standby && s.session.state != .faulted

/-- A completion takes its number: the count copy and the recent copy follow (R141). -/
def State.takeNumber (s : State) (i : Nat) (c : Half) : State :=
  s.setResults
    { s.results with
      countCopy := c, recent := s.results.recent.setIfInBounds (recentPosition c) (BitVec.ofNat 16 i) }

/-- The number that a unit takes at its grant. -/
def State.numberUnit (s : State) : UnitKind → State
  | .completion i c => s.takeNumber i c
  | .filled i c => s.takeNumber i c
  | .roundResult _ => s
  | .giveBack _ => s
  | .header _ => s
  | .sweeper => s

/-- The port holds a unit and issues its first access. -/
def State.issueUnit (s : State) (r : Request) : State :=
  s.setPort { s.port with unit := some { kind := r.kind, access := r.first, timer := 0, rest := r.rest, data := [] } }

/-- A request is granted (R141, R177, R178). -/
def State.grant (s : State) (r : Request) : State := (s.numberUnit r.kind).issueUnit r

/-! ### The completion of an access (R178) -/

/-- The bytes that an access reads: none for a write. -/
def State.readData (s : State) (a : Access) : List Byte :=
  match a.op with
  | .read words => Memory.readBytes s.memory a.addr (4 * words)
  | .writeBurst _ => []
  | .byteWrite _ => []

/-- A completed write stands in memory. -/
def State.landWrite (s : State) (a : Access) : State :=
  match a.op with
  | .read _ => s
  | .writeBurst bs => s.setMemory (Memory.writeBytes s.memory a.addr bs)
  | .byteWrite bs => s.setMemory (Memory.writeBytes s.memory a.addr bs)

/-- The unit after its access has completed: its next access is issued, or the port is free. -/
def PortUnit.next (u : PortUnit) (data : List Byte) : Option PortUnit :=
  match u.rest with
  | [] => none
  | a :: rest => some { kind := u.kind, access := a, timer := 0, rest := rest, data := data }

/-- The entry in hand leaves the completion queue; step 1 of the resume processing owes one less (R141, R172). -/
def State.dequeue (s : State) : State :=
  let s1 := s.setQueue s.results.queue.tail
  s1.setSession { s1.session with resumeOwed := s1.session.resumeOwed.map (fun k => k - 1) }

/-- The FILLED state write has completed: the frame leaves the queue, the held bit is cleared, and the delivery is
counted (R132, R142). -/
def State.frameWritten (s : State) (i : Nat) : State :=
  match s.director.queue.find? (fun q => q.slot == some i) with
  | none => s.unhold i
  | some q => ((s.dropFrame i).unhold i).tally q.trunk Tally.addDelivered

/-- The state write of a completion has completed (R132, R142). -/
def State.stateWritten (s : State) : UnitKind → State
  | .completion i _ => s.unhold i
  | .filled i _ => s.frameWritten i
  | .roundResult _ => s
  | .giveBack _ => s
  | .header _ => s
  | .sweeper => s

/-- The count write of a completion has completed, and with it the unit (R141, R145). -/
def State.countUnitDone (s : State) : UnitKind → State
  | .completion _ c => s.dequeue.countWritten c
  | .filled _ c => s.countWritten c
  | .roundResult _ => s
  | .giveBack _ => s
  | .header _ => s
  | .sweeper => s

/-- The give-back of a receive-list entry has completed (R136). -/
def State.givenBack (s : State) : UnitKind → State
  | .giveBack i => (s.setReceiveList (s.director.receiveList.filter (fun o => o.index != i))).unhold i
  | .completion _ _ => s
  | .filled _ _ => s
  | .roundResult _ => s
  | .header _ => s
  | .sweeper => s

/-- The unit in hand leaves the header writer (R148). -/
def State.headerDone (s : State) : State := s.setHeader s.header.tail

/-- What the completion of an access brings about, by its role. -/
def State.afterAccess (s : State) (k : UnitKind) (role : Role) (data : List Byte) : State :=
  match role with
  | .part => s
  | .word0 => s.word0Read data
  | .envelope => s.envelopeRead data
  | .word1 => s.word1Read data
  | .claim => s.claimWritten
  | .stateWrite => s.stateWritten k
  | .countWrite => s.countUnitDone k
  | .roundResult => s.dequeue
  | .giveBack => s.givenBack k
  | .startReads => s.headerDone.startRead data
  | .startUnit => s.headerDone.startUnitWritten
  | .reloadReads => s.headerDone.reloadRead data
  | .sweepEnd => s.headerDone.completeCheck
  | .finalUnit => s.headerDone.finishStop

/-- The access of a unit completes with success: a write stands in memory, a read's bytes are taken (log 9), the next
access is issued or the port is free, and what the access was for comes about. -/
def State.completeAccess (s : State) (u : PortUnit) : State :=
  let data := u.data ++ s.readData u.access
  let s1 := s.landWrite u.access
  (s1.setPort { s1.port with unit := u.next data }).afterAccess u.kind u.access.role data

/-- A response still counts: it comes within 1 ms of the issue (R178; log 5). -/
def PortUnit.inTime (u : PortUnit) : Bool := decide (u.timer ≤ Config.accessTimeoutMicros)

/-- The access in hand completes when it has this role and its response is in time; else nothing happens (log 6). -/
def State.completeAs (s : State) (role : Role) : State :=
  match s.port.unit with
  | none => s
  | some u => if u.access.role = role ∧ u.inTime = true then s.completeAccess u else s

/-! ### The abandoned access (R181) -/

/-- The wait for an abandoned access ends; what it may have written stands in memory (log 11). -/
def State.endAbandoned (s : State) : State :=
  match s.port.abandoned with
  | none => s
  | some a =>
    let s1 := s.landPerhaps a.access
    s1.setPort { s1.port with abandoned := none }

/-- A success response: for the unit in hand, else for the abandoned access. -/
def State.accessCompletes (s : State) : State :=
  match s.port.unit with
  | none => s.endAbandoned
  | some u => if u.inTime then s.completeAccess u else s

/-! ### Faults (R178, R179, R180) -/

/-- Fault kind of an error response (R178). -/
def AccessOp.errorKind : AccessOp → FaultKind
  | .read _ => .readError
  | .writeBurst _ => .writeError
  | .byteWrite _ => .writeError

/-- A command in progress is cut by the fault (R152, R179). -/
def State.cutCommand (s : State) : State :=
  match s.session.inProgress with
  | none => s
  | some c => (s.setSession { s.session with inProgress := none }).show c.code .cutByFault .none

/-- Entry to FAULTED on the access of the unit in hand (R80, R179). -/
def State.enterFaulted (s : State) (u : PortUnit) (k : FaultKind) : State :=
  let s1 := s.landPerhaps u.access
  let s2 := (s1.setPort { s1.port with unit := none }).setSession { s1.session with state := .faulted, faultKind := k }
  let s3 := (s2.setRegs { s2.regs with faultInfo := u.access.addr }).setSweeper
    { s2.sweeper with timerRuns := false, again := false }
  s3.cutCommand.raise .fault

/-- An error response: for the unit in hand a fault, else the end of the wait for the abandoned access (R178, R181). -/
def State.accessFails (s : State) : State :=
  match s.port.unit with
  | none => s.endAbandoned
  | some u => if u.inTime then s.enterFaulted u u.access.op.errorKind else s

/-- The access in hand has had no response by 1 ms after its issue (R178). -/
def State.timeoutDue (s : State) : Bool :=
  s.port.unit.any (fun u => decide (Config.accessTimeoutMicros ≤ u.timer))

/-- The timeout of the access in hand (R178). -/
def State.accessTimesOut (s : State) : State :=
  match s.port.unit with
  | none => s
  | some u => if Config.accessTimeoutMicros ≤ u.timer then s.enterFaulted u .timeout else s

/-- 1 ms has passed since the issue of the abandoned access (R181). -/
def State.abandonedDue (s : State) : Bool :=
  s.port.abandoned.any (fun a => decide (Config.accessTimeoutMicros ≤ a.timer))

end Sys2Proof.Machine
end

