-- ==== Sys2Proof/Machine/HostRows.lean ====
section
/-! DEFINITION. The meanings of what the host and the pins do: commands, register writes, power-on reset, SYNC, and the
two timers that no trunk owns (chapters 4, 8, 9 and 10). -/

namespace Sys2Proof.Machine

/-! ### Writes to COMMAND (R152, R155) -/

/-- A command code 1 to 7 is decided (R155). -/
def State.actOn (s : State) : Command → State
  | .start => s.decideCommand .start State.acceptStart
  | .pause => s.decideCommand .pause State.acceptPause
  | .resume => s.decideCommand .resume State.acceptResume
  | .standby => s.decideCommand .standby State.acceptStandby
  | .stop => s.decideCommand .stop State.acceptStop
  | .reload => s.decideCommand .reload State.acceptReload
  | .reset => s.resetCommand

/-- The command of a code (09 section 9.1). -/
def commandOfCode (code : BitVec 4) : Option Command :=
  match code.toNat with
  | 1 => some .start
  | 2 => some .pause
  | 3 => some .resume
  | 4 => some .standby
  | 5 => some .stop
  | 6 => some .reload
  | 7 => some .reset
  | _ => none

/-- A write of a code to COMMAND (R152, R155 point 1). -/
def State.writeCommand (s : State) (code : BitVec 4) : State :=
  match commandOfCode code with
  | some c => s.actOn c
  | none => s.refuse code .unknownCommand

/-- START (R156). -/
def execStart (s : State) : Host.Outcome State Fault Refusal := .next (s.actOn .start)

/-- PAUSE (R158). -/
def execPause (s : State) : Host.Outcome State Fault Refusal := .next (s.actOn .pause)

/-- RESUME (R158, R171). -/
def execResume (s : State) : Host.Outcome State Fault Refusal := .next (s.actOn .resume)

/-- STANDBY (R159). -/
def execStandby (s : State) : Host.Outcome State Fault Refusal := .next (s.actOn .standby)

/-- STOP (R161). -/
def execStop (s : State) : Host.Outcome State Fault Refusal := .next (s.actOn .stop)

/-- RELOAD (R160). -/
def execReload (s : State) : Host.Outcome State Fault Refusal := .next (s.actOn .reload)

/-- RESET (R163). -/
def execReset (s : State) : Host.Outcome State Fault Refusal := .next (s.actOn .reset)

/-- A write of another code to COMMAND (R152); a code 1 to 7 is that command (log 25). -/
def execUnknownCommand (code : BitVec 4) (s : State) : Host.Outcome State Fault Refusal := .next (s.writeCommand code)

/-! ### Writes to the other registers -/

/-- A write of any value to SWEEP (R67). -/
def State.writeSweep (s : State) : State := if s.sweeping then s.askSweep else s

/-- A write to INT_CAUSE clears the causes written with 1 (R146). -/
def State.writeIntCause (s : State) (value : Word) : State :=
  s.setRegs { s.regs with intCause := s.regs.intCause &&& ~~~(value.setWidth 6) }

/-- A write to INT_ENABLE (R147). -/
def State.writeIntEnable (s : State) (value : Word) : State :=
  s.setRegs { s.regs with intEnable := value.setWidth 6 }

/-- A write to AREA_BASE (R154). -/
def State.writeAreaBase (s : State) (value : Word) : State := s.setRegs { s.regs with areaBase := value }

/-- A write to the register at an offset; IDENT, STATUS, FAULT_INFO and offsets without a register ignore it (R151;
log 24). -/
def State.writeRegister (s : State) (offset : Nat) (value : Word) : State :=
  match offset with
  | 0x04 => s.writeCommand (value.setWidth 4)
  | 0x0C => s.writeAreaBase value
  | 0x10 => s.writeSweep
  | 0x14 => s.writeIntCause value
  | 0x18 => s.writeIntEnable value
  | _ => s

/-- SWEEP (R67); the value written does not matter. -/
def execSweep (_value : Word) (s : State) : Host.Outcome State Fault Refusal := .next s.writeSweep

/-- INT_CAUSE (R146). -/
def execIntCause (value : Word) (s : State) : Host.Outcome State Fault Refusal := .next (s.writeIntCause value)

/-- INT_ENABLE (R147). -/
def execIntEnable (value : Word) (s : State) : Host.Outcome State Fault Refusal := .next (s.writeIntEnable value)

/-- REGISTER_WRITE (R151, R154). -/
def execRegisterWrite (offset : Nat) (value : Word) (s : State) : Host.Outcome State Fault Refusal :=
  .next (s.writeRegister offset value)

/-! ### Pins -/

/-- POWER_ON_RESET (R164). -/
def execPowerOnReset (s : State) : Host.Outcome State Fault Refusal := .next s.powerOn

/-- SYNC_EDGE: the window opens or restarts, and the trunks in window mode select, except in STANDBY (R88, R166;
log 38). -/
def execSyncEdge (s : State) : Host.Outcome State Fault Refusal :=
  .next ((((s.openSyncWindow.selectInWindow 0).selectInWindow 1).selectInWindow 2).selectInWindow 3)

/-! ### Timers -/

/-- WINDOW_CLOSE: the open window has no time left (R166); else nothing happens (log 1). -/
def execWindowClose (s : State) : Host.Outcome State Fault Refusal :=
  .next (if s.windowSpent then s.closeWindow else s)

/-- SWEEP_TIMER_EXPIRY (R66); nothing happens while the timer has not reached its period (log 1). -/
def execSweepTimerExpiry (s : State) : Host.Outcome State Fault Refusal :=
  .next (if s.timerExpired then s.askSweep else s)

end Sys2Proof.Machine
end

