-- ==== Sys2Proof/Machine/PortRows.lean ====
section
/-! DEFINITION. The meanings of the memory port's rows and of the session controller's own moments (chapters 4, 8, 9, 10
and 11). Where the moment that a row names has not come, nothing happens (log 1, log 6). -/

namespace Sys2Proof.Machine

/-! ### The sweeper's accesses -/

/-- WORD_0_READ_DONE (R72, R75, R76). -/
def execWord0ReadDone (s : State) : Host.Outcome State Fault Refusal := .next (s.completeAs .word0)

/-- ENVELOPE_READ_DONE (R73, R74). -/
def execEnvelopeReadDone (s : State) : Host.Outcome State Fault Refusal := .next (s.completeAs .envelope)

/-- WORD_1_READ_DONE (R75). -/
def execWord1ReadDone (s : State) : Host.Outcome State Fault Refusal := .next (s.completeAs .word1)

/-- CLAIM_WRITE_DONE (R74, R75). -/
def execClaimWriteDone (s : State) : Host.Outcome State Fault Refusal := .next (s.completeAs .claim)

/-! ### Grant, responses, and the writers' completions -/

/-- PORT_GRANT: the free port takes the first waiting claimant (R177). -/
def execPortGrant (s : State) : Host.Outcome State Fault Refusal :=
  .next
    (if s.portFree then
      match s.nextRequest with
      | some r => s.grant r
      | none => s
    else s)

/-- ACCESS_COMPLETE (R178). -/
def execAccessComplete (s : State) : Host.Outcome State Fault Refusal := .next s.accessCompletes

/-- STATE_WRITE_DONE (R132, R142). -/
def execStateWriteDone (s : State) : Host.Outcome State Fault Refusal := .next (s.completeAs .stateWrite)

/-- COUNT_WRITE_DONE (R141, R145). -/
def execCountWriteDone (s : State) : Host.Outcome State Fault Refusal := .next (s.completeAs .countWrite)

/-- ROUND_RESULT_DONE (R141). -/
def execRoundResultDone (s : State) : Host.Outcome State Fault Refusal := .next (s.completeAs .roundResult)

/-- GIVE_BACK_DONE (R136). -/
def execGiveBackDone (s : State) : Host.Outcome State Fault Refusal := .next (s.completeAs .giveBack)

/-- START_READS_DONE (R156, R157). -/
def execStartReadsDone (s : State) : Host.Outcome State Fault Refusal := .next (s.completeAs .startReads)

/-- START_UNIT_DONE (R157). -/
def execStartUnitDone (s : State) : Host.Outcome State Fault Refusal := .next (s.completeAs .startUnit)

/-- RELOAD_READS_DONE (R160). -/
def execReloadReadsDone (s : State) : Host.Outcome State Fault Refusal := .next (s.completeAs .reloadReads)

/-- SWEEP_END_UNIT_DONE (R145, R148). -/
def execSweepEndUnitDone (s : State) : Host.Outcome State Fault Refusal := .next (s.completeAs .sweepEnd)

/-- ACCESS_ERROR (R178, R179). -/
def execAccessError (s : State) : Host.Outcome State Fault Refusal := .next s.accessFails

/-- ACCESS_TIMEOUT (R178, R179). -/
def execAccessTimeout (s : State) : Host.Outcome State Fault Refusal := .next s.accessTimesOut

/-- ABANDONED_ACCESS_END (R181). -/
def execAbandonedAccessEnd (s : State) : Host.Outcome State Fault Refusal := .next s.endAbandoned

/-! ### The session controller -/

/-- SETTLING_END (R168). -/
def execSettlingEnd (s : State) : Host.Outcome State Fault Refusal := .next (if s.settled then s.enterStandby else s)

/-- RESUME_RESULTS_DONE (R172). -/
def execResumeResultsDone (s : State) : Host.Outcome State Fault Refusal :=
  .next (if s.resultsResumed then s.endResume else s)

/-- STOPPING_END (R162). -/
def execStoppingEnd (s : State) : Host.Outcome State Fault Refusal := .next (if s.stopped then s.askFinal else s)

/-- STOP_FINAL_UNIT_DONE (R162). -/
def execStopFinalUnitDone (s : State) : Host.Outcome State Fault Refusal := .next (s.completeAs .finalUnit)

end Sys2Proof.Machine
end

