-- ==== Sys2Proof/Machine/TrunkRows.lean ====
section
/-! DEFINITION. The meanings of the rows of the line engines, the send scheduler and the wire (chapters 1, 2, 5 and 6).
Where the moment that a row names has not come, nothing happens (log 1). -/

namespace Sys2Proof.Machine

/-! ### Sending -/

/-- HOLD_EXPIRY (R29, R30, R89). -/
def execHoldExpiry (t : Trunk) (s : State) : Host.Outcome State Fault Refusal :=
  .next (if s.holdDue t then s.holdExpires t else s)

/-- The next edge of a trunk's line, when it shows `v`. -/
def State.edgeWith (s : State) (t : Trunk) (v : Verdict) : State :=
  if (s.engine t).edgeShows v then s.takeEdge t (otherLevel (s.engine t).level) else s

/-- TAIL_REACHED: the tail rise of the engine's own frame (R33). -/
def execTailReached (t : Trunk) (s : State) : Host.Outcome State Fault Refusal := .next (s.edgeWith t .tailReached)

/-- REPLY_SETTLED (R14, R34). -/
def execReplySettled (t : Trunk) (s : State) : Host.Outcome State Fault Refusal :=
  .next
    (match (s.engine t).settled with
    | some o => s.settleReply t o
    | none => s)

/-- REPLY_WINDOW_CLOSE (R34). -/
def execReplyWindowClose (t : Trunk) (s : State) : Host.Outcome State Fault Refusal :=
  .next (if (s.engine t).replyCloseDue then s.updateEngine t Engine.endFrame else s)

/-- LOST: the fall that shows an arbitration loss (R18, R36). -/
def execLost (t : Trunk) (s : State) : Host.Outcome State Fault Refusal := .next (s.edgeWith t .lost)

/-- SHAPE: the edge, or the time limit, at which the attempt ends SHAPE (R18, R20, R35; log 6). -/
def execShape (t : Trunk) (s : State) : Host.Outcome State Fault Refusal :=
  let e := s.engine t
  .next
    (if e.edgeShows .shape && (e.edgeDue || !e.shapeByTime) then s.takeEdge t (otherLevel e.level)
    else if e.shapeByTime then s.shapeInSending t
    else s)

/-- MARK_OR_GAP_LENGTH_ELAPSED (R4, R31, R32, R33). -/
def execMarkOrGapLengthElapsed (t : Trunk) (s : State) : Host.Outcome State Fault Refusal :=
  .next (if (s.engine t).elementElapsed then s.updateEngine t Engine.nextElement else s)

/-! ### Receiving -/

/-- LEAD_MARK (R38). -/
def execLeadMark (t : Trunk) (s : State) : Host.Outcome State Fault Refusal :=
  .next (if (s.engine t).leadMarkDue then s.updateEngine t Engine.beginReceiving else s)

/-- MALFORMED: the edge, or the time limit, at which the foreign frame is judged malformed (R5, R6, R7, R9, R11, R39;
log 6). -/
def execMalformed (t : Trunk) (s : State) : Host.Outcome State Fault Refusal :=
  let e := s.engine t
  .next
    (if e.edgeMalformed && (e.edgeDue || e.malformedByTime.isNone) then s.takeEdge t (otherLevel e.level)
    else if e.malformedByTime.isSome then s.abandonFrame t
    else s)

/-- GOOD_FRAME: the tail rise of a foreign frame that passes its check (R40, R125). -/
def execGoodFrame (t : Trunk) (s : State) : Host.Outcome State Fault Refusal := .next (s.edgeWith t .goodFrame)

/-- ANSWER_PULSE_START (R41). -/
def execAnswerPulseStart (t : Trunk) (s : State) : Host.Outcome State Fault Refusal :=
  .next (if (s.engine t).answerStartDue then s.updateEngine t (fun e => { e with pulse := .answer 0 }) else s)

/-- ANSWER_PULSE_END (R41). -/
def execAnswerPulseEnd (t : Trunk) (s : State) : Host.Outcome State Fault Refusal :=
  .next (if (s.engine t).answerEndDue then s.updateEngine t (fun e => { e with pulse := .answered }) else s)

/-- FOREIGN_FRAME_ENDED: the close of the reply window of a received frame (R40, R41). -/
def execForeignFrameEnded (t : Trunk) (s : State) : Host.Outcome State Fault Refusal :=
  .next (if (s.engine t).foreignCloseDue then s.foreignFrameEnds t else s)

/-- RECOGNISED_EDGE: an edge of the line with all that it shows (R3; log 6). -/
def execRecognisedEdge (t : Trunk) (l : Level) (s : State) : Host.Outcome State Fault Refusal :=
  .next (if (s.engine t).edgePossible l then s.takeEdge t l else s)

/-! ### The stuck line, timing and OFF -/

/-- STUCK (R43). -/
def execStuck (t : Trunk) (s : State) : Host.Outcome State Fault Refusal :=
  .next (if (s.engine t).stuckDue then s.stuckEvent t else s)

/-- STUCK_RECOVERY (R44). -/
def execStuckRecovery (t : Trunk) (s : State) : Host.Outcome State Fault Refusal :=
  .next (if (s.engine t).recoveryDue then s.recoverTrunk t else s)

/-- TIMING_TAKES_EFFECT (R47). In FAULTED the moment is the same: what R179 freezes there does not hold back values that
an accepted RELOAD has stored (log 34). -/
def execTimingTakesEffect (t : Trunk) (s : State) : Host.Outcome State Fault Refusal :=
  .next (if (s.engine t).timingDue then s.takeTiming t else s)

/-- TRUNK_OFF (R46, R102, R116). -/
def execTrunkOff (t : Trunk) (s : State) : Host.Outcome State Fault Refusal :=
  .next (if (s.engine t).offDue then s.trunkGoesOff t else s)

/-! ### The send scheduler and the repeat table -/

/-- An entry's rest ends: it is waiting, and a selection follows (R93). -/
def State.endRest (s : State) (t : Trunk) (i : Nat) : State :=
  (s.updateEntry t i (fun e => { e with condition := .waiting })).select t

/-- The pending entry of an index, with its trunk. -/
def State.pendingEntry (s : State) (i : Nat) : Option (Trunk × Entry) :=
  match s.trunkOf i with
  | none => none
  | some t => (s.findEntry t i).map (fun e => (t, e))

/-- REST_END (R93). -/
def execRestEnd (index : Nat) (s : State) : Host.Outcome State Fault Refusal :=
  .next
    (match s.pendingEntry index with
    | some (t, e) => if s.restDue e then s.endRest t index else s
    | none => s)

/-- EXPIRY (R95, R96, R97). -/
def execExpiry (index : Nat) (s : State) : Host.Outcome State Fault Refusal :=
  .next
    (match s.pendingEntry index with
    | some (t, e) => if s.expiryDue e then s.expireEntry t e else s
    | none => s)

/-- DUE_TIME (R109, R113). -/
def execDueTime (index : Nat) (s : State) : Host.Outcome State Fault Refusal :=
  .next
    (match s.findRepeat index with
    | some r => if s.dueTimeDue r then s.dueTimeOf r else s
    | none => s)

/-- ROUND_JOIN (R110). -/
def execRoundJoin (t : Trunk) (s : State) : Host.Outcome State Fault Refusal := .next (s.joinRound t)

end Sys2Proof.Machine
end

