-- ==== Sys2Proof/Machine/Dispatch.lean ====
section
/-! DEFINITION. One arm for each command of the block: the meaning that it calls. -/

namespace Sys2Proof.Machine

def exec (i : Instr) (s : State) : Host.Outcome State Fault Refusal :=
  match i with
  | .start => Sys2Proof.Machine.execStart s
  | .pause => Sys2Proof.Machine.execPause s
  | .resume => Sys2Proof.Machine.execResume s
  | .standby => Sys2Proof.Machine.execStandby s
  | .stop => Sys2Proof.Machine.execStop s
  | .reload => Sys2Proof.Machine.execReload s
  | .reset => Sys2Proof.Machine.execReset s
  | .unknownCommand code => Sys2Proof.Machine.execUnknownCommand code s
  | .sweep value => Sys2Proof.Machine.execSweep value s
  | .intCause value => Sys2Proof.Machine.execIntCause value s
  | .intEnable value => Sys2Proof.Machine.execIntEnable value s
  | .registerWrite offset value => Sys2Proof.Machine.execRegisterWrite offset value s
  | .powerOnReset => Sys2Proof.Machine.execPowerOnReset s
  | .syncEdge => Sys2Proof.Machine.execSyncEdge s
  | .windowClose => Sys2Proof.Machine.execWindowClose s
  | .sweepTimerExpiry => Sys2Proof.Machine.execSweepTimerExpiry s
  | .word0ReadDone => Sys2Proof.Machine.execWord0ReadDone s
  | .envelopeReadDone => Sys2Proof.Machine.execEnvelopeReadDone s
  | .word1ReadDone => Sys2Proof.Machine.execWord1ReadDone s
  | .claimWriteDone => Sys2Proof.Machine.execClaimWriteDone s
  | .portGrant => Sys2Proof.Machine.execPortGrant s
  | .accessComplete => Sys2Proof.Machine.execAccessComplete s
  | .stateWriteDone => Sys2Proof.Machine.execStateWriteDone s
  | .countWriteDone => Sys2Proof.Machine.execCountWriteDone s
  | .roundResultDone => Sys2Proof.Machine.execRoundResultDone s
  | .giveBackDone => Sys2Proof.Machine.execGiveBackDone s
  | .startReadsDone => Sys2Proof.Machine.execStartReadsDone s
  | .startUnitDone => Sys2Proof.Machine.execStartUnitDone s
  | .reloadReadsDone => Sys2Proof.Machine.execReloadReadsDone s
  | .sweepEndUnitDone => Sys2Proof.Machine.execSweepEndUnitDone s
  | .accessError => Sys2Proof.Machine.execAccessError s
  | .accessTimeout => Sys2Proof.Machine.execAccessTimeout s
  | .abandonedAccessEnd => Sys2Proof.Machine.execAbandonedAccessEnd s
  | .settlingEnd => Sys2Proof.Machine.execSettlingEnd s
  | .resumeResultsDone => Sys2Proof.Machine.execResumeResultsDone s
  | .stoppingEnd => Sys2Proof.Machine.execStoppingEnd s
  | .stopFinalUnitDone => Sys2Proof.Machine.execStopFinalUnitDone s
  | .holdExpiry t => Sys2Proof.Machine.execHoldExpiry t s
  | .tailReached t => Sys2Proof.Machine.execTailReached t s
  | .replySettled t => Sys2Proof.Machine.execReplySettled t s
  | .replyWindowClose t => Sys2Proof.Machine.execReplyWindowClose t s
  | .lost t => Sys2Proof.Machine.execLost t s
  | .shape t => Sys2Proof.Machine.execShape t s
  | .leadMark t => Sys2Proof.Machine.execLeadMark t s
  | .malformed t => Sys2Proof.Machine.execMalformed t s
  | .goodFrame t => Sys2Proof.Machine.execGoodFrame t s
  | .answerPulseStart t => Sys2Proof.Machine.execAnswerPulseStart t s
  | .answerPulseEnd t => Sys2Proof.Machine.execAnswerPulseEnd t s
  | .foreignFrameEnded t => Sys2Proof.Machine.execForeignFrameEnded t s
  | .stuck t => Sys2Proof.Machine.execStuck t s
  | .stuckRecovery t => Sys2Proof.Machine.execStuckRecovery t s
  | .timingTakesEffect t => Sys2Proof.Machine.execTimingTakesEffect t s
  | .trunkOff t => Sys2Proof.Machine.execTrunkOff t s
  | .restEnd index => Sys2Proof.Machine.execRestEnd index s
  | .expiry index => Sys2Proof.Machine.execExpiry index s
  | .dueTime index => Sys2Proof.Machine.execDueTime index s
  | .roundJoin t => Sys2Proof.Machine.execRoundJoin t s
  | .recognisedEdge t level => Sys2Proof.Machine.execRecognisedEdge t level s
  | .markOrGapLengthElapsed t => Sys2Proof.Machine.execMarkOrGapLengthElapsed t s

end Sys2Proof.Machine
end

