-- ==== Sys2Proof/Machine/Due.lean ====
section
/-! DEFINITION. What the block does of itself while no command waits (log 2, log 3): the events whose moment has come, in
a fixed order; one microsecond of time; and the inputs that have no row (log 7). -/

namespace Sys2Proof.Machine

/-- The command of the first row whose moment has come. -/
def firstDue : List (Bool × Instr) → Option Instr
  | [] => none
  | (due, c) :: rest => if due then some c else firstDue rest

/-- The first that is there. -/
def orElse {α : Type} (x y : Option α) : Option α :=
  match x with
  | some a => some a
  | none => y

/-- The first that `f` gives for a trunk, in the order of the trunks. -/
def firstOfTrunks (f : Trunk → Option Instr) : Option Instr := orElse (f 0) (orElse (f 1) (orElse (f 2) (f 3)))

/-- The row of an edge by what it shows. -/
def edgeRow (t : Trunk) (l : Level) : Verdict → Instr
  | .plain => .recognisedEdge t l
  | .lost => .lost t
  | .shape => .shape t
  | .malformed _ => .malformed t
  | .goodFrame => .goodFrame t
  | .tailReached => .tailReached t

/-- An edge that the filter of a trunk has recognised. -/
def State.edgeEvent (s : State) (t : Trunk) : Option Instr :=
  let e := s.engine t
  if e.edgeDue then some (edgeRow t (otherLevel e.level) e.nextVerdict) else none

/-- A length that the line's level has reached on a trunk: 6U of a candidate lead mark (R5), 40U low (R43), 20U high
while STUCK (R44). An edge that comes at the same moment ends an interval that had reached it. -/
def State.reachedOn (s : State) (t : Trunk) : Option Instr :=
  let e := s.engine t
  firstDue [ (e.leadMarkDue, .leadMark t), (e.stuckDue, .stuck t), (e.recoveryDue, .stuckRecovery t) ]

/-- The first such length of any trunk. -/
def State.reachedEvent (s : State) : Option Instr := firstOfTrunks s.reachedOn

/-- A moment of a trunk's engine that has come. -/
def State.engineEvent (s : State) (t : Trunk) : Option Instr :=
  let e := s.engine t
  firstDue
    [ (e.shapeByTime, .shape t),
      (e.malformedByTime.isSome, .malformed t),
      (e.elementElapsed, .markOrGapLengthElapsed t),
      (e.settled.isSome, .replySettled t),
      (e.replyCloseDue, .replyWindowClose t),
      (e.answerStartDue, .answerPulseStart t),
      (e.answerEndDue, .answerPulseEnd t),
      (e.foreignCloseDue, .foreignFrameEnded t),
      (e.timingDue, .timingTakesEffect t),
      (e.offDue, .trunkOff t),
      (s.holdDue t, .holdExpiry t) ]

/-- A rest or an expiry of a trunk's list whose time has come (R93, R95). R93 and R95 name no order of the two: that an
entry whose rest and expiry are reached in one millisecond has its rest end first is the model's choice (log 3). -/
def State.entryEvent (s : State) (t : Trunk) : Option Instr :=
  match (s.list t).find? (fun e => s.restDue e || s.expiryDue e) with
  | none => none
  | some e => if s.restDue e then some (.restEnd e.index) else some (.expiry e.index)

/-- The earlier due time comes first; among equals the lower index (log 3). -/
def State.dueTimeBefore (s : State) (x y : RepeatEntry) : Bool :=
  decide (s.elapsed y.nextDue < s.elapsed x.nextDue) || (x.nextDue == y.nextDue && decide (x.index < y.index))

/-- The first due time that has been reached, in an order of the model's own (log 3). -/
def State.repeatEvent (s : State) : Option Instr :=
  (orderBy s.dueTimeBefore (s.sched.repeats.filter s.dueTimeDue)).head?.map (fun r => .dueTime r.index)

/-- A round that can join. -/
def State.joinEvent (s : State) (t : Trunk) : Option Instr := if s.roundJoinDue t then some (.roundJoin t) else none

/-- A moment of the sweeper, the session controller or the port that has come. -/
def State.blockEvent (s : State) : Option Instr :=
  firstDue
    [ (s.timerExpired && !(s.sweeper.sweep.isSome && s.sweeper.again), .sweepTimerExpiry),
      (s.resultsResumed, .resumeResultsDone),
      (s.settled, .settlingEnd),
      (s.stopped, .stoppingEnd),
      (s.timeoutDue, .accessTimeout),
      (s.abandonedDue, .abandonedAccessEnd),
      (s.portFree && s.nextRequest.isSome, .portGrant) ]

/-- The first other event of the block's own whose moment has come (log 3). -/
def State.dueEvent (s : State) : Option Instr :=
  orElse (firstOfTrunks s.edgeEvent)
    (orElse (firstOfTrunks s.engineEvent)
      (orElse (if s.windowSpent then some .windowClose else none)
        (orElse (firstOfTrunks s.joinEvent)
          (orElse s.repeatEvent (orElse (firstOfTrunks s.entryEvent) s.blockEvent)))))

/-! ### One microsecond (log 4) -/

/-- Device time and the sweep timer, one microsecond later (R66, R165). -/
def State.tickTime (s : State) : State :=
  if s.session.timeRuns then
    if s.session.micros + 1 = Config.microsPerMilli then
      (s.setSession { s.session with micros := 0, deviceTime := s.session.deviceTime + 1 }).setSweeper
        { s.sweeper with timer := if s.sweeper.timerRuns then s.sweeper.timer + 1 else s.sweeper.timer }
    else s.setSession { s.session with micros := s.session.micros + 1 }
  else s

/-- The open sync window, one microsecond later (R166). -/
def State.tickWindow (s : State) : State :=
  s.setSession { s.session with window := s.session.window.map (fun w => w - 1) }

/-- The port's timers, one microsecond later (R178, R181). -/
def State.tickPort (s : State) : State :=
  s.setPort
    { unit := s.port.unit.map (fun u => { u with timer := u.timer + 1 })
      abandoned := s.port.abandoned.map (fun a => { a with timer := a.timer + 1 }) }

/-- The four engines, one microsecond later. -/
def State.tickEngines (s : State) : State := s.setEngines (Four.of (fun t => (s.engine t).tick))

/-- The wait of the next input, one microsecond later. -/
def State.tickOutside (s : State) : State :=
  match s.outside with
  | [] => s
  | (wait, x) :: rest => s.setOutside ((wait - 1, x) :: rest)

/-- One microsecond passes. -/
def State.tick (s : State) : State := s.tickEngines.tickWindow.tickTime.tickPort.tickOutside

/-! ### Inputs without a row (log 7) -/

/-- Another station pulls a trunk's line low, or lets it go. -/
def Engine.pulled (e : Engine) (low : Bool) : Engine := { e with stationsLow := low }

/-- An input without a row takes effect. -/
def State.takeOutside (s : State) : Outside → State
  | .memoryWrite addr bytes => s.setMemory (Memory.writeBytes s.memory addr bytes)
  | .pull t => s.updateEngine t (fun e => e.pulled true)
  | .letGo t => s.updateEngine t (fun e => e.pulled false)
  | .send c => s.setPending (s.pending ++ [c])

/-- The input that comes now, if any, and the state that waits for those after it. -/
def State.outsideNow (s : State) : Option (Outside × State) :=
  match s.outside with
  | [] => none
  | (0, x) :: rest => some (x, s.setOutside rest)
  | (_ + 1, _) :: _ => none

/-- What the block does while no command waits: a length that has been reached on a line, else an input that comes now,
else another event of its own, else one microsecond. -/
def State.idleStep (s : State) : Host.Outcome State Fault Refusal :=
  match s.reachedEvent with
  | some c => exec c s
  | none =>
    match s.outsideNow with
    | some (x, s1) => .next (s1.takeOutside x)
    | none =>
      match s.dueEvent with
      | some c => exec c s
      | none => .next s.tick

end Sys2Proof.Machine
end

