-- ==== Sys2Proof/Safety.lean ====
section
/-! DEFINITION. What counts as a safe run of the block, in the terms that statements use: an answer is a next state; the
memory is in its canonical form; every collection keeps within its places; slots are given in order; WAKE stands only in
STANDBY; the held map and the completion count say what the collections and the port hold. -/

namespace Sys2Proof.Safety

open Sys2Proof.Machine

/-- The command, or the step, answers a next state. -/
def Answers (o : Host.Outcome State Fault Refusal) (t : State) : Prop := o = .next t

/-- If `o` answers a next state, it satisfies `p`. -/
def OnNext (o : Host.Outcome State Fault Refusal) (p : State → Prop) : Prop := ∀ t, o = .next t → p t

/-- System memory is in its canonical form. -/
def MemoryCanonical (s : State) : Prop := Memory.wf s.memory

/-- A claim write that the sweeper has decided on goes into a place that is reserved, or into a receive list with room
(R74, R75). -/
def ClaimHasRoom (s : State) : Prop :=
  match s.sweeper.sweep with
  | none => True
  | some w =>
    match w.stage with
    | .claim (.send c) => s.sweeper.reservation = some (.list c.trunk)
    | .claim (.repeating _ _) => s.sweeper.reservation = some .repeatTable
    | .claim (.receive _) => s.director.receiveList.length < 32
    | .word0 => True
    | .envelope => True
    | .word1 => True

/-- Every collection keeps within its places, reserved places counted as taken (R82, R74). -/
def WithinPlaces (s : State) : Prop :=
  (∀ t : Trunk, s.placesTaken t ≤ 16) ∧ s.repeatsTaken ≤ 8 ∧ s.director.receiveList.length ≤ 32
    ∧ s.director.queue.length ≤ 6 ∧ ClaimHasRoom s

/-- No frame holds a slot while an older frame from the same trunk lacks one (R130). -/
def SlotsInOrder (q : List QueuedFrame) : Prop :=
  q.Pairwise (fun older newer => older.trunk = newer.trunk → older.slot = none → newer.slot = none)

/-- WAKE is asserted only in STANDBY, where the port holds no unit (R169, R170, R179). -/
def WakeOnlyInStandby (s : State) : Prop :=
  (s.standby.wake = true → s.session.state = .standby) ∧ (s.session.state = .standby → s.port.unit = none)

/-- An engine is OFF in mode and in state together, and pending OFF is clear there (R24, R46). -/
def OffAgrees (e : Engine) : Prop := (e.mode = .off ↔ e.state = .off) ∧ (e.mode = .off → e.pendingOff = false)

/-- `t` differs from `s` in its engines, scheduler, result writer, director and register window at most: what an event of
one trunk can touch. -/
def SameElsewhere (s t : State) : Prop :=
  t.memory = s.memory ∧ t.session = s.session ∧ t.port = s.port ∧ t.sweeper = s.sweeper ∧ t.header = s.header
    ∧ t.pending = s.pending ∧ t.outside = s.outside ∧ t.free = s.free

/-- `SameElsewhere`, and the standby logic is the same too. -/
def SameElsewhereAndStandby (s t : State) : Prop := SameElsewhere s t ∧ t.standby = s.standby

/-- `t` has the memory, the port, the free count and the input queues of `s`: nothing passes the bus between them. -/
def SameBus (s t : State) : Prop :=
  t.memory = s.memory ∧ t.port = s.port ∧ t.free = s.free ∧ t.pending = s.pending ∧ t.outside = s.outside

/-! ### The values that reset gives (R23, R65, R103, R106, R107, R119, R123, R138, R139, R150, R163, R166, R170) -/

/-- An engine holds the values of R23's reset column, and drives nothing (R1). -/
def EngineAtReset (e : Engine) : Prop :=
  e.mode = .off ∧ e.state = .off ∧ e.timing = { unit := 10, filter := 0, hold := 6 } ∧ e.pendingTiming = none
    ∧ e.pendingOff = false ∧ e.holdClock = 0 ∧ e.lowTime = 0 ∧ e.recoveryTime = 0 ∧ e.armed = none ∧ e.attempt = none
    ∧ e.buffer.count = 0 ∧ e.buffer.octets = [] ∧ e.buffer.bits = [] ∧ e.answer = .silent ∧ e.drives = false

/-- The sweeper holds the values of R65's reset column. -/
def SweeperAtReset (s : State) : Prop :=
  s.sweeper.period = 1000 ∧ s.sweeper.timer = 0 ∧ s.sweeper.timerRuns = false ∧ s.sweeper.sweep = none
    ∧ s.sweeper.again = false ∧ s.sweeper.cursor = 0 ∧ s.sweeper.held = 0#1024 ∧ s.sweeper.count = 0#32
    ∧ s.sweeper.reservation = none

/-- The scheduler and the repeat table are empty, with the settings of R103's reset column (R103, R106, R118). -/
def SchedulerAtReset (s : State) : Prop :=
  (∀ t : Trunk, s.list t = [] ∧ s.sched.windowMode.get t = false ∧ s.sched.backoff.get t = 1
    ∧ s.sched.toggles.get t = 0#63) ∧ s.sched.repeats = [] ∧ s.sched.seq = 0#32

/-- The director holds the values of R119's reset column, no valid duplicate, no entry and no frame (R119, R123, R138). -/
def DirectorAtReset (s : State) : Prop :=
  (∀ t : Trunk, s.director.listen.get t = { own := 0, groups := ⟨none, none, none, none⟩, acceptBroadcast := false }
    ∧ s.director.dups.get t = Vector.replicate 63 none) ∧ s.director.receiveList = [] ∧ s.director.queue = []

/-- The result writer holds the values of R139's reset column; the header writer holds no unit (R139, R144, R148). -/
def ResultsAtReset (s : State) : Prop :=
  s.results.queue = [] ∧ s.results.countCopy = 0#16 ∧ s.results.written = 0#16 ∧ s.results.reported = 0#16
    ∧ s.results.recent = Vector.replicate 8 0xFFFF#16
    ∧ (∀ t : Trunk, s.results.tallies.get t = ⟨0#32, 0#32, 0#32, 0#32, 0#32, 0#32, 0#32, 0#32⟩) ∧ s.header = []

/-- The session controller after reset: UNSET, device time stopped at 0, the sync window closed with length 1, nothing in
progress; WAKE deasserted and no trunk wake-enabled (R163, R165, R166, R170). -/
def SessionAtReset (s : State) : Prop :=
  s.session.state = .unset ∧ s.session.timeRuns = false ∧ s.session.deviceTime = 0#32 ∧ s.session.window = none
    ∧ s.session.windowLength = 1 ∧ s.session.inProgress = none ∧ s.standby.wake = false
    ∧ (∀ t : Trunk, s.standby.wakeEnable.get t = false)

/-- Every block holds the values that reset gives it; the port holds no unit. -/
def BlocksAtReset (s : State) : Prop :=
  SessionAtReset s ∧ (∀ t : Trunk, EngineAtReset (s.engine t)) ∧ SweeperAtReset s ∧ SchedulerAtReset s
    ∧ DirectorAtReset s ∧ ResultsAtReset s ∧ s.port.unit = none

/-! ### Codes (R61; 03 sections 3.5 and 3.8, 09 section 9.1) -/

/-- The code of a session state in STATUS. -/
def sessionCode : SessionState → BitVec 3
  | .unset => 0
  | .running => 1
  | .paused => 2
  | .settling => 3
  | .standby => 4
  | .stopping => 5
  | .faulted => 6

/-- The code of a trunk state in STATUS: OFF, STUCK, else the mode (R24). -/
def trunkCode (e : Engine) : BitVec 2 :=
  if e.state = .off then 0 else if e.state = .stuck then 3
  else if e.mode = .active then 2 else if e.mode = .listen then 1 else 0

/-- The code of a fault kind in STATUS. -/
def faultCode : FaultKind → BitVec 2
  | .none => 0
  | .readError => 1
  | .writeError => 2
  | .timeout => 3

/-- The code of a result in the COMMAND read-back. -/
def commandResultCode : CommandResult → BitVec 4
  | .none => 0
  | .inProgress => 1
  | .done => 2
  | .refused => 3
  | .cutByFault => 4

/-- The code of a refusal reason in the COMMAND read-back. -/
def refusalCode : RefusalReason → BitVec 4
  | .none => 0
  | .wrongState => 1
  | .busy => 2
  | .areaInvalid => 3
  | .baseMisaligned => 4
  | .unknownCommand => 5

/-- The code of an outcome or a reason in byte 40. -/
def outcomeByte : ResultCode → Byte
  | .accepted => 1
  | .sent => 2
  | .busyExhausted => 3
  | .noReplyExhausted => 4
  | .shapeExhausted => 5
  | .expired => 6
  | .cancelled => 7
  | .trunkOff => 8
  | .stopped => 9
  | .badCheck => 16
  | .badField => 17
  | .wrongSide => 18
  | .selfAddressed => 19
  | .repeatFull => 21

/-- The code of a last attempt outcome in byte 41; 0 when no attempt started. -/
def attemptByte : Option AttemptOutcome → Byte
  | none => 0
  | some .accepted => 1
  | some .sent => 2
  | some .busy => 3
  | some .noReply => 4
  | some .shape => 5
  | some .lost => 6

/-- The code of a class. -/
def classByte : FrameClass → Byte
  | .urgent => 0
  | .normal => 1
  | .bulk => 2

/-! ### The checks of a header (R51, R52) -/

/-- Checks, made in ascending order of their offsets, answer for fields, each an offset with what makes it valid: nothing
exactly when every field is valid, else the least offset whose field is not. -/
def AnswersFirstBad (checks : List (Nat × Bool)) (fields : List (Nat × Prop)) : Prop :=
  (checks.map Prod.fst).Pairwise (fun x y => x < y)
    ∧ (firstBad checks = none ↔ ∀ f ∈ fields, f.2)
    ∧ ∀ o : Nat, firstBad checks = some o ↔ (∃ f ∈ fields, f.1 = o ∧ ¬ f.2) ∧ ∀ f ∈ fields, f.1 < o → f.2

/-! ### Commands (R155) -/

/-- The row of a command. -/
def rowOf : Command → Instr
  | .start => .start
  | .pause => .pause
  | .resume => .resume
  | .standby => .standby
  | .stop => .stop
  | .reload => .reload
  | .reset => .reset

/-- The states whose column of R155's table reads Accepted. -/
def acceptingStates : Command → List SessionState
  | .start => [.unset]
  | .pause => [.running]
  | .resume => [.paused, .standby]
  | .standby => [.running, .paused]
  | .stop => [.running, .paused, .standby]
  | .reload => [.running, .paused]
  | .reset => [.unset, .running, .paused, .settling, .standby, .stopping, .faulted]

/-- Point 3 of R155 applies. -/
def Busy (s : State) : Prop :=
  s.session.state = .settling ∨ s.session.state = .stopping ∨ s.session.inProgress = some .start
    ∨ s.session.inProgress = some .reload ∨ s.session.inProgress = some .resume

/-- The register window after a refusal: the read-back shows it, and COMMAND is raised (R152). -/
def refusedRegs (s : State) (code : BitVec 4) (reason : RefusalReason) : Registers :=
  { s.regs with readBack := { code := code, result := .refused, reason := reason }, intCause := s.regs.intCause ||| 8#6 }

/-- The register window when an accepted command begins (R152). -/
def begunRegs (s : State) (code : BitVec 4) : Registers :=
  { s.regs with readBack := { code := code, result := .inProgress, reason := .none } }

/-- The register window when an accepted command is done (R152). -/
def doneRegs (s : State) (code : BitVec 4) : Registers :=
  { s.regs with readBack := { code := code, result := .done, reason := .none }, intCause := s.regs.intCause ||| 8#6 }

/-- The sweep in progress, cut (R79). -/
def cutSweeper (s : State) : Sweeper :=
  { s.sweeper with
    timerRuns := false, again := false, sweep := s.sweeper.sweep.map (fun w => { w with cut := true }) }

/-- The sweeper at a sweep start (R66, R69). -/
def startedSweeper (p : Sweeper) : Sweeper :=
  { p with
    timer := 0, target := p.period, timerRuns := true
    sweep := some { start := p.cursor, index := p.cursor, stage := .word0, cut := false } }

/-! ### The bus -/

/-- The port without a unit. -/
def freed (s : State) : State := { s with port := { s.port with unit := none } }

/-- The sweeper's access of a stage is on the bus, its response in time (R176, R178). -/
def SweeperAccess (s : State) (w : Sweep) (a : Access) : Prop :=
  s.sweeper.sweep = some w ∧ ∃ k ≤ 1000, s.port.unit = some { kind := .sweeper, access := a, timer := k, rest := [], data := [] }

/-- The last access of a unit, with the bytes read before it, is on the bus, its response in time. -/
def LastAccess (s : State) (kind : UnitKind) (a : Access) (data : List Byte) : Prop :=
  ∃ k ≤ 1000, s.port.unit = some { kind := kind, access := a, timer := k, rest := [], data := data }

/-- The state in which an index is rejected: handed to the completion queue, and held (R70, R77). -/
def rejecting (s : State) (i : Nat) (reason : ResultCode) : State :=
  { s with
    results := { s.results with queue := s.results.queue ++ [.rejected i reason] }
    sweeper := { s.sweeper with held := s.sweeper.held ||| (1#1024 <<< i) } }

/-- The state in which a POSTED index is finished CANCELLED before a claim (R72, R77). -/
def cancelling (s : State) (i : Nat) : State :=
  { s with
    results :=
      { s.results with
        queue :=
          s.results.queue
            ++ [.done i
                { outcome := .cancelled, last := none, attempts := 0, losses := 0, stamp := s.session.deviceTime
                  repeats := 0, overruns := 0 }] }
    sweeper := { s.sweeper with held := s.sweeper.held ||| (1#1024 <<< i) } }

/-- The state in which the index in hand waits for another access. -/
def staged (s : State) (w : Sweep) (g : SweepStage) : State :=
  { s with sweeper := { s.sweeper with sweep := some { w with stage := g } } }

/-! ### The count and the held map (R77, R141 to R143) -/

/-- The roles of the accesses that a unit has still to complete, the one on the bus first. -/
def rolesLeft (u : PortUnit) : List Role := (u.access :: u.rest).map Access.role

/-- The roles of the accesses of a unit, in their order (R176). The sweeper's units are single accesses, by the stage of
the index in hand, and have no order of their own. -/
def rolesOf : UnitKind → List Role
  | .completion _ _ => [.part, .stateWrite, .part, .countWrite]
  | .filled _ _ => [.part, .part, .stateWrite, .part, .countWrite]
  | .roundResult _ => [.roundResult]
  | .giveBack _ => [.giveBack]
  | .header .startReads => [.part, .startReads]
  | .header .reloadReads => [.part, .reloadReads]
  | .header .startUnit => [.startUnit]
  | .header (.sweepEnd _ _) => [.part, .part, .sweepEnd]
  | .header (.finalUnit _ _) => [.part, .part, .finalUnit]
  | .sweeper => []

/-- The role of the access that a stage waits for (R70). -/
def stageRole : SweepStage → Role
  | .word0 => .word0
  | .envelope => .envelope
  | .word1 => .word1
  | .claim _ => .claim

/-- The number of a completion unit. -/
def numberOf : UnitKind → Option Half
  | .completion _ c => some c
  | .filled _ c => some c
  | .roundResult _ => none
  | .giveBack _ => none
  | .header _ => none
  | .sweeper => none

/-- The count relation (R141, R143): the count that stands in memory is the number last given, but for a completion
unit that is granted and unfinished, whose number it lags by one; such a unit has its state write before its count
write. A unit that a fault cut stays unfinished (R144). -/
def CountsAgree (s : State) : Prop :=
  (s.session.state = .faulted → s.port.unit = none)
  ∧ match s.port.unit with
    | none =>
      s.results.written = s.results.countCopy
        ∨ (s.session.state = .faulted ∧ s.results.written + 1 = s.results.countCopy)
    | some u =>
      match numberOf u.kind with
      | none => s.results.written = s.results.countCopy
      | some c => c = s.results.countCopy ∧ s.results.written + 1 = c ∧ rolesLeft u <:+ rolesOf u.kind

/-- The completion in hand at the port has completed its state write, and its entry still stands in the queue. -/
def stateStands (s : State) : Bool :=
  match s.port.unit with
  | none => false
  | some u =>
    match u.kind with
    | .completion _ _ => !(rolesLeft u).contains .stateWrite
    | .filled _ _ => false
    | .roundResult _ => false
    | .giveBack _ => false
    | .header _ => false
    | .sweeper => false

/-- An entry of the completion queue is a completion of an index. -/
def completes (i : Nat) : Work → Bool
  | .done j _ => j == i
  | .rejected j _ => j == i
  | .round _ _ => false

/-- In how many places an index stands (R77): as an ordinary entry of a pending list, in the repeat table, in the receive
list, as a slot, and in the completion queue up to its state write. With `front`, the entry at the front of the queue has
had its state write. -/
def holders (s : State) (front : Bool) (i : Nat) : Nat :=
  ((s.list 0 ++ s.list 1 ++ s.list 2 ++ s.list 3).filter (fun e => !e.round && e.index == i)).length
    + (s.sched.repeats.filter (fun r => r.index == i)).length
    + (s.director.receiveList.filter (fun o => o.index == i)).length
    + (s.director.queue.filter (fun q => q.slot == some i)).length
    + ((if front then s.results.queue.tail else s.results.queue).filter (completes i)).length

/-- The held map (R77): the bit of an index is set exactly while one place holds the index, and none holds it twice. In
FAULTED the state does not tell whether the state write of a cut completion stands. -/
def HeldMapExact (s : State) : Prop :=
  ∃ front : Bool, (s.session.state ≠ .faulted → front = stateStands s) ∧ (front = true → s.results.queue ≠ [])
    ∧ ∀ i : Nat, holders s front i = (s.sweeper.held.getLsbD i).toNat

/-- Every round stands in its trunk's list once, for a repeat entry that is in round (R107, R109). -/
def RoundsInTable (s : State) : Prop :=
  ∀ t : Trunk, ((s.list t).map Entry.index).Nodup
    ∧ ∀ e ∈ s.list t, e.round = true → ∃ r ∈ s.sched.repeats, r.index = e.index ∧ r.copy.trunk = t ∧ r.round = .inRound

/-- The sweeper keeps within the table, and an index past its word 0 read is not held (R69, R77). -/
def SweepInTable (s : State) : Prop :=
  s.session.n ≤ 1024 ∧ s.session.f ≤ 1024 ∧ s.sweeper.cursor < 1024
    ∧ ∀ w, s.sweeper.sweep = some w →
        w.index < 1024 ∧ (w.stage ≠ .word0 → s.sweeper.held.getLsbD w.index = false)
        ∧ (w.stage = .envelope → w.index < s.session.f)
        ∧ (∀ c, w.stage = .claim (.send c) → w.index < s.session.f)
        ∧ (∀ c p, w.stage = .claim (.repeating c p) → w.index < s.session.f)

/-- The unit in hand belongs to what stands in the collections: its accesses are the last of its kind's in their order,
a completion and a round result stand at the front of the queue, a FILLED frame holds its slot until its state write, a
give-back is made in STOPPING of an entry of the receive list, and the sweeper's access is that of its stage. In FAULTED
the port holds none (R176, R179). -/
def UnitInPlace (s : State) : Prop :=
  match s.port.unit with
  | none => True
  | some u =>
    s.session.state ≠ .faulted ∧ s.session.state ≠ .standby
    ∧ match u.kind with
      | .completion i _ =>
        rolesLeft u <:+ rolesOf u.kind ∧ ∃ w ∈ s.results.queue.head?, completes i w = true
      | .filled i _ =>
        rolesLeft u <:+ rolesOf u.kind
          ∧ ((rolesLeft u).contains .stateWrite = true → ∃ q ∈ s.director.queue, q.slot = some i)
      | .roundResult _ => rolesLeft u <:+ rolesOf u.kind ∧ ∃ w ∈ s.results.queue.head?, ∀ i, completes i w = false
      | .giveBack i =>
        rolesLeft u <:+ rolesOf u.kind ∧ s.session.state = .stopping ∧ ∃ o ∈ s.director.receiveList, o.index = i
      | .header _ => rolesLeft u <:+ rolesOf u.kind ∧ s.header ≠ []
      | .sweeper => ∃ w, s.sweeper.sweep = some w ∧ rolesLeft u = [stageRole w.stage]

/-- In STANDBY, and while step 1 of the resume processing is owed, no sweep is in progress and the header writer holds
nothing; RESUME is then in progress, unless a fault has cut it (R168, R172). -/
def ResumeInOrder (s : State) : Prop :=
  (s.session.state = .standby ∨ s.session.resumeOwed ≠ none → s.sweeper.sweep = none ∧ s.header = [])
  ∧ (s.session.resumeOwed ≠ none →
      s.session.state = .faulted ∨ (s.session.state = .running ∧ s.session.inProgress = some .resume))

/-- The held map says what the collections hold, with all that it rests on (R77, R82, R109, R176). -/
def HeldMapKept (s : State) : Prop :=
  HeldMapExact s ∧ RoundsInTable s ∧ SweepInTable s ∧ UnitInPlace s ∧ ResumeInOrder s

/-! ### What finished work hands on (R86, R112, R114) -/

/-- The DONE of an ordinary entry that finishes (R86). -/
def entryDone (x : Entry) (code : ResultCode) (stamp : Word) : Work :=
  .done x.index
    { outcome := code, last := x.last, attempts := x.attempts, losses := x.losses, stamp := stamp, repeats := 0
      overruns := 0 }

/-- The final DONE of a repetition that ends with the last round figures at a moment (R114). -/
def repeatDone (r : RepeatEntry) (code : ResultCode) (stamp : Word) : Work :=
  .done r.index
    { outcome := code, last := r.last, attempts := r.attempts, losses := r.losses, stamp := stamp
      repeats := r.count, overruns := r.overruns }

/-- The final DONE of a repetition that ends with an uncounted round `x` at a moment (R112, R114). -/
def roundDone (r : RepeatEntry) (x : Entry) (code : ResultCode) (stamp : Word) : Work :=
  .done r.index
    { outcome := code, last := if x.attempts = 0 then r.last else x.last, attempts := x.attempts, losses := x.losses
      stamp := stamp, repeats := r.count, overruns := r.overruns }

/-- What an entry that finishes with an uncounted outcome at a moment hands on, by the repeat table: an ordinary one its
own DONE, a round the final DONE of its repetition. -/
def uncountedDone (table : List RepeatEntry) (code : ResultCode) (stamp : Word) (x : Entry) : List Work :=
  if x.round then
    match table.find? (fun r => r.index == x.index) with
    | some r => [roundDone r x code stamp]
    | none => []
  else [entryDone x code stamp]

/-! ### What STANDBY keeps back (R97, R104, R171, R173) -/

/-- The order in which marked entries join the completion queue (R97): each once; by the moments of expiry; on one trunk
in list order within a millisecond; across trunks, within a millisecond, the entry that joined earlier first, where list
order and order of joining agree on each trunk (log 21). -/
def MarkedInOrder (s : State) (order : List (Trunk × Entry)) : Prop :=
  let age := fun w : Word => (s.session.deviceTime - w).toNat
  let joinedSince := fun x : Entry => (s.sched.seq - x.seq).toNat
  (∀ m ∈ order, m.2.stamp ≠ none)
    ∧ (∀ (o : Trunk) (w : Word),
        (order.filter (fun m => m.1 == o && m.2.stamp == some w)).map Prod.snd
          = (s.list o).filter (fun x => x.stamp == some w))
    ∧ order.Pairwise (fun x y => ∀ v w, x.2.stamp = some v → y.2.stamp = some w → age w ≤ age v)
    ∧ ((∀ o : Trunk, (s.list o).Pairwise (fun x y => x.stamp ≠ none → x.stamp = y.stamp → joinedSince y ≤ joinedSince x)) →
        order.Pairwise (fun x y => x.2.stamp = y.2.stamp → joinedSince y.2 ≤ joinedSince x.2))

/-- Entries handed on in an order, in a session state: one marked in STANDBY EXPIRED with its kept stamp, any other
STOPPED with the moment (R97, R104). -/
def handedOn (s : State) (x : SessionState) (order : List (Trunk × Entry)) : State :=
  order.foldl
    (fun u m =>
      u.handOn m.2 (if m.2.stamp.isSome then .expired else .stopped) (m.2.stamp.getD s.session.deviceTime))
    { s with session := { s.session with state := x } }

/-- The entries of a trunk that are not marked in STANDBY. -/
def unmarked (s : State) (o : Trunk) : List Entry := (s.list o).filter (fun x => x.stamp.isNone)

/-- In a trunk's list an entry stands ahead of another. -/
def AheadOf (l : List Entry) (x y : Entry) : Prop := ∃ a b c, l = a ++ x :: (b ++ y :: c)

/-- On a trunk the moments of the marked entries agree with list order. -/
def MomentsInListOrder (s : State) (o : Trunk) : Prop :=
  (s.list o).Pairwise (fun x y => ∀ v w, x.stamp = some v → y.stamp = some w →
    (s.session.deviceTime - w).toNat ≤ (s.session.deviceTime - v).toNat)

/-- A trunk's part of an order over all trunks. -/
def partOf (order : List (Trunk × Entry)) (o : Trunk) : List Entry :=
  (order.filter (fun m => m.1 == o)).map Prod.snd

/-- How the lists that STANDBY leaves end at STOP (R97, R104; log 21): `order` comes first over all trunks, then `rest` of
each trunk in turn. Marked entries stand in the order of R97 and unmarked ones of a trunk in list order; `order` holds
the unmarked entries that stand ahead of a marked one in their list, and each comes before it. Where the moments on a
trunk agree with list order, that trunk's whole list ends in list order. -/
def EndsAtStop (s : State) (order : List (Trunk × Entry)) (rest : Trunk → List Entry) : Prop :=
  MarkedInOrder s (order.filter (fun m => m.2.stamp.isSome))
    ∧ (∀ o : Trunk, (partOf order o).filter (fun x => x.stamp.isNone) ++ rest o = unmarked s o)
    ∧ (∀ (o : Trunk) (x : Entry), x ∈ partOf order o → x.stamp = none →
        ∃ y, y.stamp ≠ none ∧ AheadOf (s.list o) x y)
    ∧ (∀ (o : Trunk) (x y : Entry), AheadOf (s.list o) x y → x.stamp = none → y.stamp ≠ none →
        AheadOf (partOf order o) x y)
    ∧ (∀ o : Trunk, MomentsInListOrder s o → partOf order o ++ rest o = s.list o)

/-- Each index stands once in a trunk's list and once in the repeat table. -/
def DistinctOn (s : State) (t : Trunk) : Prop :=
  ((s.list t).map Entry.index).Nodup ∧ (s.sched.repeats.map RepeatEntry.index).Nodup

/-- The repetition of a round that stands in a list. -/
def roundIn (l : List Entry) (r : RepeatEntry) : Bool := l.any (fun x => x.round && x.index == r.index)

/-- The repetitions of a trunk that a list's rounds leave, in ascending index (R116, R117). -/
def LeftOver (table : List RepeatEntry) (t : Trunk) (l : List Entry) (left : List RepeatEntry) : Prop :=
  left.Pairwise (fun x y => x.index < y.index)
    ∧ ∀ r, r ∈ left ↔ r ∈ table ∧ r.copy.trunk = t ∧ roundIn l r = false

/-- What a trunk whose entries and repetitions all end at a moment hands on: the entries in list order, then the
repetitions that are left, each with its last round figures (R102, R104, R116, R117). -/
def trunkEnds (table : List RepeatEntry) (l : List Entry) (left : List RepeatEntry) (code : ResultCode) (stamp : Word) :
    List Work :=
  l.flatMap (uncountedDone table code stamp) ++ left.map (fun r => repeatDone r code stamp)

/-- The repeat table when a trunk's entries and repetitions have all ended. -/
def tableAfter (table : List RepeatEntry) (t : Trunk) (l : List Entry) : List RepeatEntry :=
  table.filter (fun r => r.copy.trunk != t && !roundIn l r)

/-- The port holds the unit of the entry at the front of the completion queue. -/
def FrontInHand (s : State) : Prop :=
  ∃ u, s.port.unit = some u ∧ ((∃ i c, u.kind = .completion i c) ∨ ∃ i, u.kind = .roundResult i)

/-! ### Moments of the block's own (R3, R95, R178) -/

/-- A row that the block makes of itself and the condition of its moment: the row is the event whose turn it is only while
the condition holds, and while it holds there is such an event, so no time passes. -/
def ComesWhile (event : Option Instr) (row : Instr) (condition : Prop) : Prop :=
  (event = some row → condition) ∧ (event = none → ¬ condition)

/-- The wire has differed from the recognised level for the filter time (R1, R3). -/
def EdgeReached (e : Engine) : Prop :=
  (if e.drives = true ∨ e.stationsLow = true then Level.low else Level.high) ≠ e.level ∧ e.timing.filter ≤ e.rawTime

/-- The rows that an edge on a trunk may be, by what it shows (R3, R33, R36, R40). -/
def EdgeRow (t : Trunk) (c : Instr) : Prop :=
  (∃ l, c = .recognisedEdge t l) ∨ c = .lost t ∨ c = .shape t ∨ c = .malformed t ∨ c = .goodFrame t ∨ c = .tailReached t

/-! ### Trunks -/

/-- A RELOAD that names this mode for an engine that is not OFF sends it OFF at once: the engine has no frame and no
outcome to wait for (R46; log 15). -/
def goesOffAtOnce (e : Engine) (m : Mode) : Bool :=
  e.mode != .off && m == .off && (e.state == .idle || e.state == .holding || e.state == .stuck) && e.attempt == none

/-- The first eligible entry of a trunk's list is the armed one (R88). -/
def Selected (s : State) (t : Trunk) : Prop :=
  (s.engine t).armed.map Armed.index = ((s.list t).find? (s.eligible t)).map Entry.index

/-- The lists of the other trunks and their engines are the same. -/
def OtherTrunksSame (s u : State) (t : Trunk) : Prop := ∀ o : Trunk, o ≠ t → u.engine o = s.engine o ∧ u.list o = s.list o

/-- Every pending list stands in class order: URGENT, NORMAL, BULK (R82). -/
def ListsInClassOrder (s : State) : Prop :=
  ∀ t : Trunk, (s.list t).Pairwise (fun x y => x.copy.cls.code ≤ y.copy.cls.code)

/-- An entry is eligible (R87). -/
def Eligible (s : State) (t : Trunk) (x : Entry) : Prop :=
  (x.condition = .waiting ∨ x.condition = .armed) ∧ x.endMark = .none
    ∧ (x.copy.cls = .urgent ∨ s.sched.windowMode.get t = false
      ∨ ∃ left, s.session.window = some left
          ∧ (141 + 32 * x.copy.length + 9 * x.copy.replyWanted.toNat) * (10 * (s.engine t).timing.unit) ≤ left)

/-- A pulse one microsecond later (R4, R13, R20). -/
def aged : Pulse → Pulse
  | .quiet => .quiet
  | .mark w => .mark (w + 1)
  | .rising w => .rising (w + 1)
  | .gap => .gap
  | .answer w => .answer (w + 1)
  | .answered => .answered

/-- The engine after an edge to a level: the clocks of the line return to 0, and a fall that the engine does not drive is
another station's (R3, R27, R42, R44). -/
def edged (e : Engine) (l : Level) : Engine :=
  { e with
    level := l, edgeTime := 0, rawTime := 0, lowTime := 0, holdClock := 0, recoveryTime := 0
    stationsLow := (l == .low) && (e.stationsLow || !e.drives) }

/-- The engine at the end of a frame: HOLDING or IDLE, driving nothing (R21, R24, R27). -/
def atFrameEnd (e : Engine) : Engine :=
  { e with
    state := if e.armed.isSome then .holding else .idle
    pulse := .quiet, window := none, answer := .silent, holdClock := 0
    buffer := { own := false, leadTaken := false, count := 0, octets := [], bits := [], length := none, sum := 0#8 }
    candidate := false }

/-- The attempt is over. -/
def withoutAttempt (e : Engine) : Engine := { e with attempt := none, reply := .unset }

/-- From `s` to `v` a frame that another station sent has ended on a trunk, and a selection has followed (R27, R37, R88). -/
def FrameOver (s v : State) (t : Trunk) : Prop :=
  (v.engine t).state = (if (v.engine t).armed.isSome then .holding else .idle)
    ∧ (v.engine t).holdClock = 0 ∧ (v.engine t).buffer.octets = [] ∧ (v.engine t).answer = .silent
    ∧ (v.engine t).window = none ∧ (v.engine t).drives = false
    ∧ (v.engine t).attempt = (s.engine t).attempt ∧ (v.engine t).timing = (s.engine t).timing
    ∧ (v.engine t).mode = (s.engine t).mode
    ∧ (s.schedulerLive = true → (s.engine t).takesArming = true → Selected v t)
    ∧ (s.schedulerLive = false ∨ (s.engine t).takesArming = false →
        (v.engine t).armed = (s.engine t).armed ∧ v.list t = s.list t)
    ∧ (v.list t).map Entry.index = (s.list t).map Entry.index
    ∧ v.sched.repeats = s.sched.repeats ∧ OtherTrunksSame s v t ∧ SameElsewhere s v

/-- From `s` to `v` the lead of an attempt of entry `x` has started (R30, R31). -/
def LeadStarted (s v : State) (t : Trunk) (x : Entry) : Prop :=
  ∃ a : Attempt,
    v.engine t =
        { s.engine t with
          state := .sending .lead, pulse := .mark 0, holdClock := 0
          buffer := { own := true, leadTaken := false, count := 0, octets := [], bits := [], length := none, sum := 0#8 }
          armed := none, attempt := some a, reply := .unset, candidate := false }
    ∧ a.index = x.index ∧ a.cls = x.copy.cls ∧ a.dest = x.copy.dest ∧ a.channel = x.copy.channel
    ∧ a.length = x.copy.length ∧ a.replyWanted = x.copy.replyWanted ∧ a.payload = x.copy.payload
    ∧ a.source = (s.director.listen.get t).own ∧ a.toggle = (s.sched.toggles.get t).getLsbD x.copy.dest
    ∧ a.o1 = BitVec.ofNat 8 (64 * a.cls.code + a.dest)
    ∧ a.o2 = BitVec.ofNat 8 (4 * a.source + 2 * a.toggle.toNat + a.replyWanted.toNat)
    ∧ a.o3 = BitVec.ofNat 8 (8 * a.length + a.channel)
    ∧ octetSum ([a.o1, a.o2, a.o3] ++ a.payload ++ [a.check]) = 255#8 ∧ a.position = 0

/-- An entry whose attempt has started (R90). -/
def inFlightOf (x : Entry) : Entry := { x with condition := .inFlight, attempts := min 255 (x.attempts + 1) }

/-- An entry that is no longer armed (R88). -/
def unarmed (x : Entry) : Entry := if x.condition = .armed then { x with condition := .waiting } else x

/-- `v` has the register window, results, director and standby logic of `s`, and all that an event of one trunk leaves. -/
def SameOutsideTrunks (s v : State) : Prop :=
  SameElsewhereAndStandby s v ∧ v.regs = s.regs ∧ v.results = s.results ∧ v.director = s.director

end Sys2Proof.Safety
end

