-- ==== Sys2Proof/Certificates/Slice0/Obligations.lean ====
section
/-! DEFINITION. The statements for the provers. A statement about a command answers a next state for every state that meets
its hypotheses, and an equation of states says what changes and, by the same token, all that does not. -/

open Sys2Proof Sys2Proof.Machine Sys2Proof.Safety

/-! ### The step -/

/-- A step executes the command at the front of the queue on the state with the queue's rest. -/
def Obligations.StepRunsFrontCommand : Prop :=
  ∀ (c : Instr) (rest : List Instr) (s : State), s.pending = c :: rest → step s = exec c { s with pending := rest }

/-- With no command waiting, a length that a line's level has reached comes first, then an input whose wait is over,
then another event of the block's own whose moment has come, then one microsecond: the model's choice (log 2, log 3, log
7). The moments: of a candidate lead mark, STUCK and recovery; of an edge, which is recognised exactly when the wire has
differed from the recognised level for the filter time in force (log 37); of hold expiry, pending timing and trunk off
(log 15, log 36), rests, expiries and due times, the window's close, the sweep timer, whose expiry during a sweep is not
taken again while the again request is set (log 17), the end of the resume results, the access timeout and the end of an
abandoned access. Such a row comes only while its condition holds, and no time passes while it does. What a microsecond is (log 4): device time rises at the end of a millisecond, and the sweep timer with it
while it runs; the open sync window and the wait of the next input have one less, the port's timers one more. An engine
that is OFF runs its filter and its edge time alone; any other also its hold clock, low time, recovery time, pulse and
reply window, each while the line is as its rule asks. -/
def Obligations.StepWithoutCommands : Prop :=
  (∀ s : State, s.pending = [] →
    (∀ c : Instr, s.reachedEvent = some c → step s = exec c s)
    ∧ (s.reachedEvent = none →
        (∀ (x : Outside) (rest : List (Nat × Outside)), s.outside = (0, x) :: rest →
          step s = .next ({ s with outside := rest }.takeOutside x))
        ∧ ((∀ (w : Nat × Outside), s.outside.head? = some w → w.1 ≠ 0) →
            (∀ c : Instr, s.dueEvent = some c → step s = exec c s) ∧ (s.dueEvent = none → step s = .next s.tick))))
  ∧ (∀ s : State,
    let live := s.session.state ≠ .unset ∧ s.session.state ≠ .faulted
    let since := fun w : Word => (s.session.deviceTime - w).toNat
    (∀ o : Trunk,
      let e := s.engine o
      let atRest := e.state = .idle ∨ e.state = .holding
      ComesWhile s.reachedEvent (.leadMark o)
        (atRest ∧ e.level = .low ∧ e.candidate = true ∧ 60 * e.timing.unit ≤ e.lowTime)
      ∧ ComesWhile s.reachedEvent (.stuck o) (atRest ∧ e.level = .low ∧ 400 * e.timing.unit ≤ e.lowTime)
      ∧ ComesWhile s.reachedEvent (.stuckRecovery o)
          (e.state = .stuck ∧ e.level = .high ∧ 200 * e.timing.unit ≤ e.recoveryTime)
      ∧ (EdgeReached e → (∀ p : Trunk, p.val < o.val → ¬ EdgeReached (s.engine p)) →
          ∃ c, s.dueEvent = some c ∧ EdgeRow o c)
      ∧ (∀ l, ComesWhile s.dueEvent (.recognisedEdge o l) (EdgeReached e) ∧ s.dueEvent ≠ some (.recognisedEdge o e.level))
      ∧ ComesWhile s.dueEvent (.goodFrame o) (EdgeReached e)
      ∧ ComesWhile s.dueEvent (.tailReached o) (EdgeReached e)
      ∧ ComesWhile s.dueEvent (.lost o) (EdgeReached e)
      ∧ ComesWhile s.dueEvent (.holdExpiry o)
          (s.session.state = .running ∧ e.state = .holding ∧ e.mode = .active ∧ e.pendingOff = false
            ∧ ∃ m, e.armed = some m ∧ m.holdUnits * (10 * e.timing.unit) ≤ e.holdClock)
      ∧ ComesWhile s.dueEvent (.timingTakesEffect o)
          (e.pendingTiming ≠ none ∧ atRest ∧ e.level = .high ∧ e.attempt = none)
      ∧ ComesWhile s.dueEvent (.trunkOff o) (e.pendingOff = true ∧ (atRest ∨ e.state = .stuck) ∧ e.attempt = none))
    ∧ (∀ i : Nat,
      ComesWhile s.dueEvent (.restEnd i)
        (live ∧ ∃ o : Trunk, ∃ x ∈ s.list o, x.index = i ∧ ∃ ms began, x.condition = .resting ms began ∧ ms ≤ since began)
      ∧ ComesWhile s.dueEvent (.expiry i)
        (live ∧ ∃ o : Trunk, ∃ x ∈ s.list o, x.index = i ∧ x.endMark = .none
          ∧ ∃ ms, x.copy.expiry = some ms ∧ ms ≤ since x.joined)
      ∧ ComesWhile s.dueEvent (.dueTime i)
        (live ∧ ∃ r ∈ s.sched.repeats, r.index = i ∧ since r.nextDue < 2147483648))
    ∧ ComesWhile s.dueEvent .windowClose (s.session.window = some 0)
    ∧ ComesWhile s.dueEvent .sweepTimerExpiry
        ((s.session.state = .running ∨ s.session.state = .paused) ∧ s.session.resumeOwed = none
          ∧ s.sweeper.timerRuns = true ∧ s.sweeper.target ≤ s.sweeper.timer
          ∧ (s.sweeper.sweep = none ∨ s.sweeper.again = false))
    ∧ ComesWhile s.dueEvent .resumeResultsDone (s.session.state = .running ∧ s.session.resumeOwed = some 0)
    ∧ ComesWhile s.dueEvent .accessTimeout (∃ u, s.port.unit = some u ∧ 1000 ≤ u.timer)
    ∧ ComesWhile s.dueEvent .abandonedAccessEnd (∃ a, s.port.abandoned = some a ∧ 1000 ≤ a.timer))
  ∧ ∀ s : State,
    let t := s.tick
    let window := s.session.window.map (fun w => w - 1)
    (s.session.timeRuns = false → t.session = { s.session with window := window } ∧ t.sweeper = s.sweeper)
    ∧ (s.session.timeRuns = true → s.session.micros ≠ 999 →
        t.session = { s.session with window := window, micros := s.session.micros + 1 } ∧ t.sweeper = s.sweeper)
    ∧ (s.session.timeRuns = true → s.session.micros = 999 →
        t.session = { s.session with window := window, micros := 0, deviceTime := s.session.deviceTime + 1 }
        ∧ (s.sweeper.timerRuns = true → t.sweeper = { s.sweeper with timer := s.sweeper.timer + 1 })
        ∧ (s.sweeper.timerRuns = false → t.sweeper = s.sweeper))
    ∧ t.port =
        { unit := s.port.unit.map (fun u => { u with timer := u.timer + 1 })
          abandoned := s.port.abandoned.map (fun a => { a with timer := a.timer + 1 }) }
    ∧ (s.outside = [] → t.outside = [])
    ∧ (∀ w x rest, s.outside = (w, x) :: rest → t.outside = (w - 1, x) :: rest)
    ∧ (∀ o : Trunk,
        let e := s.engine o
        let onWire : Level := if e.drives = true ∨ e.stationsLow = true then .low else .high
        let filtered := { e with edgeTime := e.edgeTime + 1, rawTime := if onWire = e.level then 0 else e.rawTime + 1 }
        (e.state = .off → t.engine o = filtered)
        ∧ (e.state ≠ .off →
            t.engine o =
              { filtered with
                holdClock := if (e.state = .idle ∨ e.state = .holding) ∧ e.level = .high then e.holdClock + 1 else 0
                lowTime := if e.level = .low then e.lowTime + 1 else 0
                recoveryTime := if e.state = .stuck ∧ e.level = .high then e.recoveryTime + 1 else 0
                pulse := aged e.pulse, window := e.window.map (fun w => w + 1) }))
    ∧ t.pending = s.pending ∧ t.memory = s.memory ∧ t.regs = s.regs ∧ t.sched = s.sched ∧ t.director = s.director
    ∧ t.results = s.results ∧ t.header = s.header ∧ t.standby = s.standby ∧ t.free = s.free

/-! ### Reset -/

/-- The state right after power-on reset; the invariants below hold in it. -/
def Obligations.ResetState : Prop :=
  BlocksAtReset State.reset ∧ State.reset.port.abandoned = none ∧ State.reset.session.number = 0#16
    ∧ State.reset.readRegister 0x00 = 0x4C540301#32 ∧ State.reset.readRegister 0x04 = 0#32
    ∧ State.reset.readRegister 0x08 = 0#32 ∧ State.reset.readRegister 0x0C = 0#32
    ∧ State.reset.readRegister 0x10 = 0#32 ∧ State.reset.readRegister 0x14 = 0#32
    ∧ State.reset.readRegister 0x18 = 0#32 ∧ State.reset.readRegister 0x1C = 0#32
    ∧ State.reset.irq = false ∧ State.reset.pending = []
    ∧ MemoryCanonical State.reset ∧ WithinPlaces State.reset ∧ SlotsInOrder State.reset.director.queue
    ∧ WakeOnlyInStandby State.reset ∧ ListsInClassOrder State.reset ∧ HeldMapKept State.reset ∧ CountsAgree State.reset

/-- Power-on reset puts every block in its reset state and clears what RESET keeps; nothing is left on the bus. Memory is
unchanged where no write was on the bus: nothing, or a read, an abandoned one included. -/
def Obligations.PowerOnReset : Prop :=
  ∀ s : State, ∃ t : State, exec .powerOnReset s = .next t ∧ BlocksAtReset t ∧ t.port.abandoned = none
    ∧ t.regs = { areaBase := 0#32, intCause := 0#6, intEnable := 0#6, faultInfo := 0#32
                 readBack := { code := 0#4, result := .none, reason := .none } }
    ∧ t.session.faultKind = .none ∧ t.session.number = 0#16 ∧ t.irq = false
    ∧ ((∀ u : PortUnit, s.port.unit = some u → ∃ k, u.access.op = .read k) →
        (∀ a : Abandoned, s.port.abandoned = some a → ∃ k, a.access.op = .read k) → t.memory = s.memory)
    ∧ t.pending = s.pending ∧ t.outside = s.outside

/-- RESET acts in every state: every block takes its reset values, what R163 names keeps its value, no cause is raised, no
memory is accessed, and the access on the bus is abandoned. -/
def Obligations.ResetCommand : Prop :=
  ∀ s : State, ∃ t : State, exec .reset s = .next t ∧ BlocksAtReset t
    ∧ t.regs = { s.regs with intCause := 0#6, readBack := { code := 7#4, result := .done, reason := .none } }
    ∧ t.session.faultKind = s.session.faultKind ∧ t.session.number = s.session.number
    ∧ t.memory = s.memory
    ∧ (∀ u : PortUnit, s.port.unit = some u → t.port.abandoned = some { access := u.access, timer := u.timer })
    ∧ (s.port.unit = none → t.port.abandoned = s.port.abandoned)
    ∧ t.pending = s.pending ∧ t.outside = s.outside ∧ t.free = s.free

/-! ### Commands -/

/-- Which refusal a command meets, in the order of R155, and that it changes nothing but the read-back and the COMMAND
cause: a code outside 1 to 7 in every state; a command other than RESET by BUSY, WRONG_STATE, BASE_MISALIGNED. -/
def Obligations.CommandsRefused : Prop :=
  (∀ (s : State) (code : BitVec 4), code.toNat = 0 ∨ 8 ≤ code.toNat →
    exec (.unknownCommand code) s = .next { s with regs := refusedRegs s code .unknownCommand })
  ∧ ∀ (s : State) (c : Command), c ≠ .reset →
    (Busy s → exec (rowOf c) s = .next { s with regs := refusedRegs s c.code .busy })
    ∧ (¬ Busy s → s.session.state ∉ acceptingStates c →
        exec (rowOf c) s = .next { s with regs := refusedRegs s c.code .wrongState })
    ∧ (¬ Busy s → s.session.state = .unset → c = .start → s.regs.areaBase.toNat % 256 ≠ 0 →
        exec (rowOf c) s = .next { s with regs := refusedRegs s c.code .baseMisaligned })

/-- START is accepted in UNSET with an aligned base: the session base is copied, the header reads are asked for, and the
session stays UNSET. PAUSE, and RESUME from PAUSED, take effect at once and are done; no sweep is started. STANDBY starts
SETTLING and cuts the sweep. RELOAD asks for the header reads, and every setting stays. -/
def Obligations.CommandsAccepted : Prop :=
  ∀ s : State, ¬ Busy s →
    (s.session.state = .unset → s.regs.areaBase.toNat % 256 = 0 →
      exec .start s = .next
        { s with
          regs := begunRegs s 1#4
          session := { s.session with base := s.regs.areaBase, inProgress := some .start }
          header := s.header ++ [.startReads] })
    ∧ (s.session.state = .running →
      exec .pause s = .next
        { s with regs := doneRegs s 2#4, session := { s.session with state := .paused, inProgress := none } })
    ∧ (s.session.state = .paused →
      exec .resume s = .next
        { s with regs := doneRegs s 3#4, session := { s.session with state := .running, inProgress := none } })
    ∧ (s.session.state = .running ∨ s.session.state = .paused →
      exec .standby s = .next
        { s with
          regs := begunRegs s 4#4
          session := { s.session with state := .settling, inProgress := some .standby }
          sweeper := cutSweeper s }
      ∧ exec .reload s = .next
        { s with
          regs := begunRegs s 6#4
          session := { s.session with inProgress := some .reload }
          header := s.header ++ [.reloadReads] })

/-- STOP is accepted in RUNNING, PAUSED and STANDBY: WAKE falls, the sweep is cut, frames without a slot are discarded
and counted refused, and each trunk without an attempt in flight has its STOP processing: its entries finish STOPPED in
list order, a round with the final DONE of its repetition, then the repetitions that are left end STOPPED with their
last round figures, in ascending index. The list of a trunk with an attempt in flight stays. From STANDBY, where none
is in flight, a marked entry finishes EXPIRED with its kept stamp, the marked ones of all trunks in the order of R97 and
each behind the unmarked ones ahead of it in its list. That order, and trunk 0 first where the spec orders no trunks,
are of log 21. That a trunk has had its STOP processing is a field of the model (log 28), and what trunk-off processing
STANDBY kept back is dropped (log 33). The invariant HeldMapKept, which StepKeepsPlaces states, gives distinct indices.
-/
def Obligations.StopAccepted : Prop :=
  ∀ s : State, ¬ Busy s → s.session.state = .running ∨ s.session.state = .paused ∨ s.session.state = .standby →
    ∃ t : State, exec .stop s = .next t
      ∧ t.session = { s.session with state := .stopping, inProgress := some .stop }
      ∧ t.regs = begunRegs s 5#4 ∧ t.standby = { s.standby with wake := false } ∧ t.sweeper = cutSweeper s
      ∧ t.director = { s.director with queue := s.director.queue.filter (fun q => q.slot.isSome) }
      ∧ (∀ o : Trunk, (t.results.tallies.get o).refused
          = (s.results.tallies.get o).refused
            + BitVec.ofNat 32 (s.director.queue.filter (fun q => q.slot.isNone && q.trunk == o)).length)
      ∧ (s.session.state ≠ .standby → ∀ o : Trunk, s.inFlight o = true → t.list o = s.list o)
      ∧ (∀ o : Trunk, s.inFlight o = false → s.sched.stopDone.get o = false →
          t.list o = [] ∧ (t.engine o).armed = none ∧ t.sched.stopDone.get o = true
          ∧ ∀ r ∈ t.sched.repeats, r.copy.trunk ≠ o)
      ∧ (∀ o : Trunk, t.sched.offOwed.get o = false)
      ∧ (HeldMapKept s → s.session.state ≠ .standby → ∃ left : Trunk → List RepeatEntry,
          (∀ o : Trunk, LeftOver s.sched.repeats o (s.list o) (left o))
          ∧ t.results.queue = s.results.queue
              ++ [0, 1, 2, 3].flatMap (fun o : Trunk =>
                if s.inFlight o = false ∧ s.sched.stopDone.get o = false then
                  trunkEnds s.sched.repeats (s.list o) (left o) .stopped s.session.deviceTime
                else []))
      ∧ (HeldMapKept s → s.session.state = .standby →
          (∀ o : Trunk, s.inFlight o = false ∧ s.sched.stopDone.get o = false) →
          ∃ (order : List (Trunk × Entry)) (rest : Trunk → List Entry) (left : Trunk → List RepeatEntry),
            let held := handedOn s .stopping order
            EndsAtStop s order rest
            ∧ (∀ o : Trunk, LeftOver held.sched.repeats o (rest o) (left o))
            ∧ t.results.queue = held.results.queue
                ++ [0, 1, 2, 3].flatMap (fun o : Trunk =>
                  trunkEnds held.sched.repeats (rest o) (left o) .stopped s.session.deviceTime))
      ∧ t.memory = s.memory ∧ t.port = s.port ∧ t.header = s.header

/-- RESUME from STANDBY: the session is RUNNING, WAKE falls, every entry marked in STANDBY leaves its list while the
unmarked stay, and step 1 of the resume processing owes what the completion queue then holds. The marked entries are
handed on EXPIRED with their kept stamps, in the order of R97 (log 21), a round to its repetition. A trunk whose
trunk-off processing STANDBY kept back has it then, trunk 0 first: its unmarked entries end TRUNK_OFF in list order, then
the repetitions that are left (log 33). The invariant HeldMapKept, which StepKeepsPlaces states, gives distinct indices. -/
def Obligations.ResumeFromStandby : Prop :=
  ∀ s : State, ¬ Busy s → s.session.state = .standby →
    ∃ t : State, exec .resume s = .next t
      ∧ t.session = { s.session with state := .running, inProgress := some .resume, resumeOwed := some t.results.queue.length }
      ∧ t.regs = begunRegs s 3#4 ∧ t.standby = { s.standby with wake := false }
      ∧ (∀ (o : Trunk) (e : Entry), e ∈ t.list o → e.stamp = none)
      ∧ (∀ o : Trunk, s.sched.offOwed.get o = false →
          (t.list o).map Entry.index =
            ((s.list o).map Entry.index).filter (fun i => !(s.list o).any (fun e => e.index == i && e.stamp.isSome)))
      ∧ (∀ o : Trunk, s.sched.offOwed.get o = true → t.list o = [] ∧ ∀ r ∈ t.sched.repeats, r.copy.trunk ≠ o)
      ∧ (∀ o : Trunk, t.sched.offOwed.get o = false)
      ∧ (∃ order : List (Trunk × Entry),
          let held := handedOn s .running order
          MarkedInOrder s order
          ∧ ((∀ o : Trunk, s.sched.offOwed.get o = false) →
              t.results = held.results ∧ t.sched.repeats = held.sched.repeats)
          ∧ (HeldMapKept s → ∃ left : Trunk → List RepeatEntry,
              (∀ o : Trunk, LeftOver held.sched.repeats o (unmarked s o) (left o))
              ∧ t.results =
                  { held.results with
                    queue := held.results.queue
                      ++ [0, 1, 2, 3].flatMap (fun o : Trunk =>
                        if s.sched.offOwed.get o = true then
                          trunkEnds held.sched.repeats (unmarked s o) (left o) .trunkOff s.session.deviceTime
                        else []) }
              ∧ t.sched.repeats = held.sched.repeats.filter (fun r => !s.sched.offOwed.get r.copy.trunk)))
      ∧ t.director = s.director ∧ t.sweeper = s.sweeper
      ∧ t.memory = s.memory ∧ t.port = s.port ∧ t.header = s.header

/-! ### Register writes -/

/-- A write to SWEEP and the sweep timer's expiry in RUNNING and PAUSED: each starts a sweep, or sets the again request
when one is in progress; with the two orders in which they can meet. An expiry during a sweep leaves the timer where it
is (log 17), and a row sent before its moment changes nothing (log 1). -/
def Obligations.SweepStarts : Prop :=
  ∀ (s : State) (v : Word),
    ((s.session.state = .running ∨ s.session.state = .paused) → s.session.resumeOwed = none →
      (s.sweeper.sweep = none → exec (.sweep v) s = .next { s with sweeper := startedSweeper s.sweeper })
      ∧ (s.sweeper.sweep ≠ none → exec (.sweep v) s = .next { s with sweeper := { s.sweeper with again := true } })
      ∧ (s.sweeper.sweep = none → 1 ≤ s.sweeper.period →
          exec .sweepTimerExpiry { s with sweeper := startedSweeper s.sweeper }
            = .next { s with sweeper := startedSweeper s.sweeper })
      ∧ exec (.sweep v) { s with sweeper := startedSweeper s.sweeper }
          = .next { s with sweeper := { startedSweeper s.sweeper with again := true } }
      ∧ (s.sweeper.timerRuns = true → s.sweeper.target ≤ s.sweeper.timer →
        (s.sweeper.sweep = none → exec .sweepTimerExpiry s = .next { s with sweeper := startedSweeper s.sweeper })
        ∧ (s.sweeper.sweep ≠ none →
            exec .sweepTimerExpiry s = .next { s with sweeper := { s.sweeper with again := true } })))
    ∧ ((s.session.state ≠ .running ∧ s.session.state ≠ .paused) ∨ s.session.resumeOwed ≠ none →
        exec (.sweep v) s = .next s)
    ∧ s.readRegister 0x10 = 0#32

/-- IRQ is asserted exactly while an enabled cause is set; it is deasserted after power-on reset and after RESET, until an
enabled cause is raised, and WAKE does not enter it. -/
def Obligations.IrqFollowsCauses : Prop :=
  ∀ s : State,
    (s.irq = true ↔ ∃ k, k < 6 ∧ s.regs.intCause.getLsbD k = true ∧ s.regs.intEnable.getLsbD k = true)
    ∧ (∀ c : Cause, s.regs.intEnable.getLsbD c.bit = true → (s.raise c).irq = true)
    ∧ (∀ v t, exec (.intCause v) s = .next t → (t.irq = true ↔ t.regs.intCause &&& s.regs.intEnable ≠ 0#6))
    ∧ (∀ v t, exec (.intEnable v) s = .next t → (t.irq = true ↔ s.regs.intCause &&& t.regs.intEnable ≠ 0#6))
    ∧ (∀ t, exec .powerOnReset s = .next t → t.irq = false ∧ t.regs.intCause = 0#6 ∧ t.regs.intEnable = 0#6)
    ∧ (∀ t, exec .reset s = .next t →
        t.irq = false ∧ t.regs.intCause = 0#6 ∧ t.regs.intEnable = s.regs.intEnable)
    ∧ (∀ w : Standby, { s with standby := w }.irq = s.irq)

/-- INT_CAUSE is cleared bit by bit, and INT_ENABLE takes the value. Which register a write reaches: AREA_BASE takes the
value; COMMAND, SWEEP, INT_CAUSE and INT_ENABLE act as their own rows; a write to IDENT, STATUS or FAULT_INFO changes
nothing. -/
def Obligations.RegisterWrites : Prop :=
  ∀ (s : State) (v : Word),
    exec (.intCause v) s = .next { s with regs := { s.regs with intCause := s.regs.intCause &&& ~~~(v.setWidth 6) } }
    ∧ exec (.intEnable v) s = .next { s with regs := { s.regs with intEnable := v.setWidth 6 } }
    ∧ (∀ k, k < 6 → (s.regs.intCause &&& ~~~(v.setWidth 6)).getLsbD k = (s.regs.intCause.getLsbD k && !v.getLsbD k))
    ∧ exec (.registerWrite 0x0C v) s = .next { s with regs := { s.regs with areaBase := v } }
    ∧ ({ s with regs := { s.regs with areaBase := v } }).readRegister 0x0C = v
    ∧ (∀ o : Nat, o = 0x00 ∨ o = 0x08 ∨ o = 0x1C → exec (.registerWrite o v) s = .next s)
    ∧ exec (.registerWrite 0x10 v) s = exec (.sweep v) s
    ∧ exec (.registerWrite 0x14 v) s = exec (.intCause v) s
    ∧ exec (.registerWrite 0x18 v) s = exec (.intEnable v) s
    ∧ (∀ c : Command, v.setWidth 4 = c.code → exec (.registerWrite 0x04 v) s = exec (rowOf c) s)
    ∧ ((v.setWidth 4).toNat = 0 ∨ 8 ≤ (v.setWidth 4).toNat →
        exec (.registerWrite 0x04 v) s = exec (.unknownCommand (v.setWidth 4)) s)

/-- STATUS shows the session state, the trunk states, the level of the delivery queue and the fault kind in its named
bits, each by its code, and 0 elsewhere. What the other registers read: COMMAND the code, the result and the refusal
reason of its read-back, INT_CAUSE and INT_ENABLE their six named bits, AREA_BASE and FAULT_INFO their value, SWEEP 0.
-/
def Obligations.StatusFields : Prop :=
  (∀ s : State, s.director.queue.length ≤ 6 →
    let w := s.readRegister 0x08
    w.extractLsb' 0 3 = sessionCode s.session.state
    ∧ w.extractLsb' 3 5 = 0#5
    ∧ w.extractLsb' 8 2 = trunkCode (s.engine 0)
    ∧ w.extractLsb' 10 2 = trunkCode (s.engine 1)
    ∧ w.extractLsb' 12 2 = trunkCode (s.engine 2)
    ∧ w.extractLsb' 14 2 = trunkCode (s.engine 3)
    ∧ w.extractLsb' 16 3 = BitVec.ofNat 3 s.director.queue.length
    ∧ w.extractLsb' 19 1 = 0#1
    ∧ w.extractLsb' 20 2 = faultCode s.session.faultKind
    ∧ w.extractLsb' 22 10 = 0#10)
  ∧ ∀ s : State,
    let c := s.readRegister 0x04
    c.extractLsb' 0 4 = s.regs.readBack.code
    ∧ c.extractLsb' 4 4 = commandResultCode s.regs.readBack.result
    ∧ c.extractLsb' 8 4 = refusalCode s.regs.readBack.reason
    ∧ c.extractLsb' 12 20 = 0#20
    ∧ (s.readRegister 0x14).extractLsb' 0 6 = s.regs.intCause ∧ (s.readRegister 0x14).extractLsb' 6 26 = 0#26
    ∧ (s.readRegister 0x18).extractLsb' 0 6 = s.regs.intEnable ∧ (s.readRegister 0x18).extractLsb' 6 26 = 0#26
    ∧ s.readRegister 0x00 = 0x4C540301#32 ∧ s.readRegister 0x0C = s.regs.areaBase
    ∧ s.readRegister 0x10 = 0#32 ∧ s.readRegister 0x1C = s.regs.faultInfo

/-! ### The sync window -/

/-- A rising edge on SYNC opens or restarts the window with its full length and makes each trunk in window mode select,
but in STANDBY nothing acts on it (log 38); its closing changes nothing else and causes no selection. -/
def Obligations.SyncWindow : Prop :=
  ∀ s : State,
    (∃ t : State, exec .syncEdge s = .next t
      ∧ t.session = { s.session with window := some (10 * s.session.windowLength) }
      ∧ (∀ o : Trunk, s.sched.windowMode.get o = false → t.engine o = s.engine o ∧ t.list o = s.list o)
      ∧ (∀ o : Trunk, s.sched.windowMode.get o = true → s.schedulerLive = true → s.session.state ≠ .standby →
          (s.engine o).takesArming = true → Selected t o)
      ∧ (s.schedulerLive = false ∨ s.session.state = .standby → t.engines = s.engines ∧ t.sched = s.sched)
      ∧ t.sched.repeats = s.sched.repeats ∧ t.regs = s.regs ∧ t.results = s.results ∧ t.director = s.director
      ∧ SameBus s t ∧ t.sweeper = s.sweeper ∧ t.header = s.header ∧ t.standby = s.standby)
    ∧ (s.session.window = some 0 →
        exec .windowClose s = .next { s with session := { s.session with window := none } })

/-! ### The sweeper -/

/-- The order of a sweep: the k-th index visited is the k-th of the send side from the claim cursor on, wrapping at F,
and then the receive side in ascending order, each of the N indices once. The end of the handling of an index: a cut
sweep ends without a report; else the next index is begun; after the last the sweep count rises, the sweep end is
reported, and the again request starts a new sweep. A cut sweep ends after the handling in hand (log 18). -/
def Obligations.SweepOrder : Prop :=
  (∀ n f start : Nat, 1 ≤ f → f < n → start < f →
     let visit := fun k : Nat => if k < f then (start + k) % f else k
     visit 0 = start
     ∧ (∀ k, k + 1 < n → nextIndex n f start (visit k) = some (visit (k + 1)))
     ∧ nextIndex n f start (visit (n - 1)) = none
     ∧ (∀ i, i < n → ∃ k, k < n ∧ visit k = i ∧ ∀ j, j < n → visit j = i → j = k))
  ∧ (∀ (s : State) (w : Sweep), s.sweeper.sweep = some w →
     (w.cut = true → s.indexHandled = { s with sweeper := { s.sweeper with sweep := none } })
     ∧ (w.cut = false → ∀ i, nextIndex s.session.n s.session.f w.start w.index = some i →
         s.indexHandled = { s with sweeper := { s.sweeper with sweep := some { w with index := i, stage := .word0 } } })
     ∧ (w.cut = false → nextIndex s.session.n s.session.f w.start w.index = none → s.sweeper.again = false →
         s.indexHandled =
           { s with
             sweeper := { s.sweeper with count := s.sweeper.count + 1, sweep := none, again := false }
             header := s.header ++ [.sweepEnd s.session.deviceTime (s.sweeper.count + 1)] })
     ∧ (w.cut = false → nextIndex s.session.n s.session.f w.start w.index = none → s.sweeper.again = true →
         s.indexHandled =
           { s with
             sweeper := startedSweeper { s.sweeper with count := s.sweeper.count + 1, sweep := none, again := false }
             header := s.header ++ [.sweepEnd s.session.deviceTime (s.sweeper.count + 1)] }))

/-- The word 0 read. Of a held index only the cancel request counts, and a set one is passed to the block that holds
the side of the index. An index that is not held is decided by its side, its state byte and its cancel request; in
PAUSED a POSTED envelope is left. The word 1 read of an OFFERED receive envelope: a bad mask is rejected, a full
receive list leaves the envelope, else the claim is decided. The bytes are those that memory holds at the completion
of the read (log 9). -/
def Obligations.WordReadsDecided : Prop :=
  (∀ (s : State) (w : Sweep) (a : Word), SweeperAccess s w { role := .word0, addr := a, op := .read 1 } →
     (s.sweeper.held.getLsbD w.index = true →
      ((Memory.read s.memory (a + 1).toNat).getLsbD 0 = false →
        exec .word0ReadDone s = .next (freed s).indexHandled)
      ∧ ((Memory.read s.memory (a + 1).toNat).getLsbD 0 = true → w.index < s.session.f →
        exec .word0ReadDone s = .next ((freed s).sendCancel w.index).indexHandled)
      ∧ ((Memory.read s.memory (a + 1).toNat).getLsbD 0 = true → s.session.f ≤ w.index →
        exec .word0ReadDone s = .next ((freed s).receiveCancel w.index).indexHandled))
     ∧ (s.sweeper.held.getLsbD w.index = false →
      let value := (Memory.read s.memory a.toNat).toNat
      let cancel := (Memory.read s.memory (a + 1).toNat).getLsbD 0
      (w.index < s.session.f →
        (value = 2 → exec .word0ReadDone s = .next (rejecting (freed s) w.index .wrongSide).indexHandled)
        ∧ (value = 1 → cancel = true → exec .word0ReadDone s = .next (cancelling (freed s) w.index).indexHandled)
        ∧ (value = 1 → cancel = false → s.session.state ≠ .paused →
            exec .word0ReadDone s = .next (staged (freed s) w .envelope))
        ∧ (value = 1 → cancel = false → s.session.state = .paused →
            exec .word0ReadDone s = .next (freed s).indexHandled)
        ∧ (value ≠ 1 → value ≠ 2 → exec .word0ReadDone s = .next (freed s).indexHandled))
      ∧ (s.session.f ≤ w.index →
        (value = 1 → exec .word0ReadDone s = .next (rejecting (freed s) w.index .wrongSide).indexHandled)
        ∧ (value = 2 → cancel = true →
            exec .word0ReadDone s = .next (rejecting (freed s) w.index .cancelled).indexHandled)
        ∧ (value = 2 → cancel = false → exec .word0ReadDone s = .next (staged (freed s) w .word1))
        ∧ (value ≠ 1 → value ≠ 2 → exec .word0ReadDone s = .next (freed s).indexHandled))))
  ∧ (∀ (s : State) (w : Sweep) (a : Word), SweeperAccess s w { role := .word1, addr := a, op := .read 1 } →
     let mask := Memory.read s.memory a.toNat
     (mask.toNat = 0 ∨ 16 ≤ mask.toNat →
       exec .word1ReadDone s = .next (rejecting (freed s) w.index .badField).indexHandled)
     ∧ (mask.toNat ≠ 0 → mask.toNat < 16 → 32 ≤ s.director.receiveList.length →
       exec .word1ReadDone s = .next (freed s).indexHandled)
     ∧ (mask.toNat ≠ 0 → mask.toNat < 16 → s.director.receiveList.length < 32 →
       exec .word1ReadDone s = .next (staged (freed s) w (.claim (.receive mask)))))

/-- The whole-envelope read: a state that is no longer POSTED leaves the envelope, a cancel finishes it, and the four
tests are made in their order. A read that returns in PAUSED leaves an envelope without a cancel (log 19). The bytes are
those that memory holds at the completion of the read (log 9). -/
def Obligations.EnvelopeTests : Prop :=
  ∀ (s : State) (w : Sweep) (a : Word), SweeperAccess s w { role := .envelope, addr := a, op := .read 16 } →
    let bs := Memory.readBytes s.memory a 64
    let e := sendFields bs
    let t := e.trunkNo
    let done := exec .envelopeReadDone s
    ((byteAt bs 0).toNat ≠ 1 → done = .next (freed s).indexHandled)
    ∧ ((byteAt bs 0).toNat = 1 → (byteAt bs 1).getLsbD 0 = true →
        done = .next (cancelling (freed s) w.index).indexHandled)
    ∧ ((byteAt bs 0).toNat = 1 → (byteAt bs 1).getLsbD 0 = false → s.session.state = .paused →
        done = .next (freed s).indexHandled)
    ∧ ((byteAt bs 0).toNat = 1 → (byteAt bs 1).getLsbD 0 = false → s.session.state ≠ .paused →
        (checkByte bs ≠ byteAt bs 11 → done = .next (rejecting (freed s) w.index .badCheck).indexHandled)
        ∧ (checkByte bs = byteAt bs 11 → e.valid = false →
            done = .next (rejecting (freed s) w.index .badField).indexHandled)
        ∧ (checkByte bs = byteAt bs 11 → e.valid = true → e.dest = (s.director.listen.get t).own →
            done = .next (rejecting (freed s) w.index .selfAddressed).indexHandled)
        ∧ (checkByte bs = byteAt bs 11 → e.valid = true → e.dest ≠ (s.director.listen.get t).own →
            (s.engine t).mode = .off ∨ (s.engine t).pendingOff = true →
            done = .next (rejecting (freed s) w.index .trunkOff).indexHandled))

/-- The room test of an envelope that has passed the four tests: a repeating one is rejected when the eight places are
taken, an ordinary one is left when its trunk's sixteen are; else a place is reserved and the claim is decided, which
no earlier trunk-off processing of the trunk touches (log 35). In PAUSED no envelope comes so far (EnvelopeTests;
log 19). The bytes are those that memory holds at the completion of the read (log 9). -/
def Obligations.EnvelopeRoom : Prop :=
  ∀ (s : State) (w : Sweep) (a : Word), SweeperAccess s w { role := .envelope, addr := a, op := .read 16 } →
    let bs := Memory.readBytes s.memory a 64
    let e := sendFields bs
    let t := e.trunkNo
    let done := exec .envelopeReadDone s
    (byteAt bs 0).toNat = 1 → (byteAt bs 1).getLsbD 0 = false → s.session.state ≠ .paused →
    checkByte bs = byteAt bs 11 → e.valid = true → e.dest ≠ (s.director.listen.get t).own →
    (s.engine t).mode ≠ .off → (s.engine t).pendingOff = false → s.sweeper.reservation = none →
    (e.repeats = true →
      (8 ≤ s.sched.repeats.length → done = .next (rejecting (freed s) w.index .repeatFull).indexHandled)
      ∧ (s.sched.repeats.length < 8 →
          done = .next
            { freed s with
              sched := { s.sched with offDone := s.sched.offDone.set t false }
              sweeper :=
                { s.sweeper with
                  reservation := some .repeatTable
                  sweep := some { w with stage := .claim (.repeating e.copy e.period) } } }))
    ∧ (e.repeats = false →
      (16 ≤ (s.list t).length → done = .next (freed s).indexHandled)
      ∧ ((s.list t).length < 16 →
          done = .next
            { freed s with
              sched := { s.sched with offDone := s.sched.offDone.set t false }
              sweeper :=
                { s.sweeper with
                  reservation := some (.list t), sweep := some { w with stage := .claim (.send e.copy) } } }))

/-- When the fields of a send envelope are valid, which bytes the check byte guards, and which bytes the copy of a
claim takes. -/
def Obligations.SendFieldsValid : Prop :=
  ∀ bs : List Byte,
    let b := fun k : Nat => (byteAt bs k).toNat
    let word := fun k : Nat => b k + 256 * b (k + 1)
    ((sendFields bs).valid = true ↔
      b 4 ≤ 3 ∧ b 5 ≤ 2 ∧ b 6 ≤ 63 ∧ b 7 ≤ 7 ∧ b 8 ≤ 24 ∧ b 9 ≤ 15 ∧ b 10 < 8
        ∧ ¬ (b 6 = 63 ∧ b 10 % 2 = 1)
        ∧ (b 10 / 2 % 2 = 1 → 10 ≤ word 12 ∧ word 12 ≤ 60000)
        ∧ (b 10 / 4 % 2 = 1 → word 14 ≠ 0))
    ∧ checkByte bs = ([4, 5, 6, 7, 8, 9, 10] ++ (List.range 28).map (fun k => 12 + k)).foldl
        (fun x k => x ^^^ byteAt bs k) 0#8
    ∧ (sendFields bs).dest = b 6 ∧ ((sendFields bs).repeats = true ↔ b 10 / 2 % 2 = 1)
    ∧ (bs.length = 64 → (sendFields bs).valid = true →
        let c := (sendFields bs).copy
        c.trunk.val = b 4 ∧ (sendFields bs).trunkNo = c.trunk ∧ classByte c.cls = byteAt bs 5 ∧ c.dest = b 6
        ∧ c.channel = b 7 ∧ c.length = b 8 ∧ c.retries = b 9 ∧ (c.replyWanted = true ↔ b 10 % 2 = 1)
        ∧ (sendFields bs).period = word 12
        ∧ c.expiry = (if b 10 / 4 % 2 = 1 then some (word 14) else none)
        ∧ c.payload = (List.range (b 8)).map (fun k => byteAt bs (16 + k)))

/-- A claim write of the send side completes: HELD stands in byte 0 alone, the held bit is set, the cursor moves on, the
reservation ends. An ordinary entry takes its place by class with the next sequence number, nothing attempted, in
STOPPING too while its trunk still waits for its STOP processing, and a selection follows on the trunk, whose engine is
left alone where it takes no arming. That a trunk has had its STOP processing, or its
trunk-off processing since the claim was decided, is a field of the model (log 28, log 35). -/
def Obligations.SendClaimCompletes : Prop :=
  ∀ (s : State) (w : Sweep) (a : Word) (c : SendCopy),
    SweeperAccess s w { role := .claim, addr := a, op := .byteWrite [3#8] } → w.stage = .claim (.send c) →
    s.sched.offDone.get c.trunk = false → (s.session.state = .stopping → s.sched.stopDone.get c.trunk = false) →
    (s.list c.trunk).Pairwise (fun x y => x.copy.cls.code ≤ y.copy.cls.code) →
    ∃ t : State, exec .claimWriteDone s = .next t
      ∧ t.memory = Memory.write s.memory a.toNat 3#8 ∧ t.port = { s.port with unit := none }
      ∧ t.sweeper.held = s.sweeper.held ||| (1#1024 <<< w.index)
      ∧ t.sweeper.cursor = (if w.index + 1 = s.session.f then 0 else w.index + 1)
      ∧ t.sweeper.reservation = none
      ∧ t.sched.seq = s.sched.seq + 1
      ∧ (t.list c.trunk).map Entry.index =
          ((s.list c.trunk).filter (fun x => decide (x.copy.cls.code ≤ c.cls.code))).map Entry.index ++ [w.index]
            ++ ((s.list c.trunk).filter (fun x => decide (c.cls.code < x.copy.cls.code))).map Entry.index
      ∧ (∃ e ∈ t.list c.trunk, e.index = w.index ∧ e.copy = c ∧ e.round = false ∧ e.seq = s.sched.seq ∧ e.attempts = 0
          ∧ e.losses = 0 ∧ e.failures = 0 ∧ e.last = none ∧ e.retry = false ∧ e.joined = s.session.deviceTime
          ∧ e.endMark = .none ∧ (e.condition = .waiting ∨ e.condition = .armed))
      ∧ (s.session.state ≠ .unset → s.session.state ≠ .faulted → (s.engine c.trunk).takesArming = true →
          Selected t c.trunk)
      ∧ ((s.engine c.trunk).takesArming = false → t.engine c.trunk = s.engine c.trunk)
      ∧ OtherTrunksSame s t c.trunk
      ∧ t.results = s.results ∧ t.director = s.director ∧ t.session = s.session ∧ t.regs = s.regs

/-- A claim write completes for a trunk that has had its trunk-off or its STOP processing since the claim was decided,
whatever mode the trunk has by then: an entry finishes as it joins, with no attempt made, and a repeat entry ends as it
joins, with no round; the list and the table keep what they hold of other indices. That a trunk has had either
processing is a field of the model (log 28, log 35). -/
def Obligations.LateClaimFinishes : Prop :=
  ∀ (s : State) (w : Sweep) (a : Word) (c : SendCopy),
    SweeperAccess s w { role := .claim, addr := a, op := .byteWrite [3#8] } →
    let finished := fun (code : ResultCode) (kept : State → Prop) =>
      ∃ t : State, exec .claimWriteDone s = .next t ∧ kept t
        ∧ t.results.queue = s.results.queue
            ++ [.done w.index
                { outcome := code, last := none, attempts := 0, losses := 0, stamp := s.session.deviceTime
                  repeats := 0, overruns := 0 }]
        ∧ t.sweeper.held = s.sweeper.held ||| (1#1024 <<< w.index) ∧ t.sweeper.reservation = none
        ∧ t.memory = Memory.write s.memory a.toNat 3#8
    let ends := fun kept : State → Prop =>
      (s.session.state = .stopping → s.sched.stopDone.get c.trunk = true → finished .stopped kept)
      ∧ (s.session.state ≠ .stopping ∨ s.sched.stopDone.get c.trunk = false → s.sched.offDone.get c.trunk = true →
          finished .trunkOff kept)
    (w.stage = .claim (.send c) →
      ends (fun t => t.list c.trunk = (s.list c.trunk).filter (fun e => e.index != w.index)
        ∧ t.sched.seq = s.sched.seq + 1 ∧ t.sched.repeats = s.sched.repeats))
    ∧ (∀ period, w.stage = .claim (.repeating c period) →
      ends (fun t => t.sched.repeats = s.sched.repeats.filter (fun r => r.index != w.index)
        ∧ t.sched.lists = s.sched.lists ∧ t.sched.seq = s.sched.seq))

/-- A claim write of a repeating envelope completes: the entry stands in the table with its next due time one period
after this moment, its first round in its list, where a selection follows on the trunk, or due; in STOPPING, while its
trunk still waits for its STOP processing, no round falls due. That a trunk has had its STOP processing, or its
trunk-off processing since the claim was decided, is a field of the model (log 28, log 35). -/
def Obligations.RepeatClaimCompletes : Prop :=
  ∀ (s : State) (w : Sweep) (a : Word) (c : SendCopy) (period : Nat),
    SweeperAccess s w { role := .claim, addr := a, op := .byteWrite [3#8] } → w.stage = .claim (.repeating c period) →
    s.sched.offDone.get c.trunk = false →
    s.session.state = .running ∨ s.session.state = .paused ∨ s.session.state = .settling
      ∨ (s.session.state = .stopping ∧ s.sched.stopDone.get c.trunk = false) →
    ∃ t : State, exec .claimWriteDone s = .next t
      ∧ t.memory = Memory.write s.memory a.toNat 3#8
      ∧ t.sweeper.held = s.sweeper.held ||| (1#1024 <<< w.index)
      ∧ t.sweeper.cursor = (if w.index + 1 = s.session.f then 0 else w.index + 1)
      ∧ t.sweeper.reservation = none
      ∧ (∃ r ∈ t.sched.repeats, r.index = w.index ∧ r.copy = c ∧ r.period = period ∧ r.count = 0 ∧ r.overruns = 0
          ∧ r.nextDue = s.session.deviceTime + BitVec.ofNat 32 period ∧ r.endRequest = false
          ∧ (s.session.state ≠ .stopping → r.round = .inRound ∨ r.round = .due s.session.deviceTime)
          ∧ (s.session.state = .stopping → r.round = .between))
      ∧ (s.session.state = .stopping → t.sched.lists = s.sched.lists)
      ∧ (s.session.state ≠ .stopping → (s.list c.trunk).length < 16 →
          (t.list c.trunk).length = (s.list c.trunk).length + 1
          ∧ ((∀ x ∈ s.sched.repeats, x.copy.trunk = c.trunk → ∀ m, x.round ≠ .due m) →
              ∃ e ∈ t.list c.trunk, e.index = w.index ∧ e.copy = c ∧ e.round = true ∧ e.seq = s.sched.seq
                ∧ e.joined = s.session.deviceTime ∧ (e.condition = .waiting ∨ e.condition = .armed))
          ∧ ((s.engine c.trunk).takesArming = true → Selected t c.trunk)
          ∧ ((s.engine c.trunk).takesArming = false → t.engine c.trunk = s.engine c.trunk))
      ∧ (16 ≤ (s.list c.trunk).length → t.list c.trunk = s.list c.trunk ∧ t.engine c.trunk = s.engine c.trunk)

/-- A claim write of the receive side completes: HELD stands in byte 0, the held bit is set, and the entry joins the end
of the receive list; in RUNNING and PAUSED a slot assignment follows. -/
def Obligations.ReceiveClaimCompletes : Prop :=
  ∀ (s : State) (w : Sweep) (a : Word) (mask : Byte),
    SweeperAccess s w { role := .claim, addr := a, op := .byteWrite [3#8] } → w.stage = .claim (.receive mask) →
    let entry : Offered := { index := w.index, mask := mask }
    let joined : State :=
      { freed s with
        memory := Memory.write s.memory a.toNat 3#8
        sweeper := { s.sweeper with held := s.sweeper.held ||| (1#1024 <<< w.index) }
        director := { s.director with receiveList := s.director.receiveList ++ [entry] } }
    ((s.session.state = .running ∨ s.session.state = .paused) → s.session.resumeOwed = none →
      exec .claimWriteDone s = .next joined.assignSlots.indexHandled)
    ∧ (s.session.state ≠ .running → s.session.state ≠ .paused →
      exec .claimWriteDone s = .next joined.indexHandled)

/-! ### The port -/

/-- The free port grants the first waiting claimant: result writer, delivery writer, header writer, sweeper; a port
that holds a unit grants nothing. A grant where none can be made changes nothing (log 1). -/
def Obligations.GrantOrder : Prop :=
  ∀ s : State,
    (s.portFree = true →
      (∀ r, s.resultRequest = some r → exec .portGrant s = .next (s.grant r))
      ∧ (s.resultRequest = none → ∀ r, s.deliveryRequest = some r → exec .portGrant s = .next (s.grant r))
      ∧ (s.resultRequest = none → s.deliveryRequest = none → ∀ r, s.headerRequest = some r →
          exec .portGrant s = .next (s.grant r))
      ∧ (s.resultRequest = none → s.deliveryRequest = none → s.headerRequest = none → ∀ r, s.sweeperRequest = some r →
          exec .portGrant s = .next (s.grant r)))
    ∧ (s.port.unit ≠ none ∨ s.port.abandoned ≠ none ∨ s.session.state = .standby ∨ s.session.state = .faulted →
        exec .portGrant s = .next s)

/-- What each claimant puts on the bus at a grant. In RUNNING, PAUSED, SETTLING and STOPPING a completion takes the next
number, its position of the recent copy takes the index, and its writes follow in the order of R62: DONE and a round
result write bytes 40 to 51, REJECTED byte 40, FILLED bytes 5 to 39, by their layouts and codes. FILLED takes the oldest
frame that holds a slot at the grant, which is the model's choice of the moment (log 39). A give-back at STOP writes
OFFERED. The header writer reads offsets 0x000 to 0x05F for START and 0x008 to 0x05F for RELOAD, writes 0x00C to 0x01F
at START, and at a sweep end the tallies as they stand at the grant, then the time and count of the report. The sweeper
reads word 0, the whole envelope or word 1 of the index in hand, or writes HELD into its byte 0. -/
def Obligations.CompletionUnits : Prop :=
  (∀ (s : State) (i : Nat),
    s.session.state = .running ∨ s.session.state = .paused ∨ s.session.state = .settling ∨ s.session.state = .stopping →
    s.port = { unit := none, abandoned := none } →
    let c := s.results.countCopy + 1
    let pos := (c - 1#16).toNat % 8
    let env := fun b : Nat => s.session.base + BitVec.ofNat 32 (256 + 64 * i + b)
    let tail : Byte → List Access := fun state =>
      [ { role := .stateWrite, addr := env 0, op := .byteWrite [state] },
         { role := .part, addr := s.session.base + BitVec.ofNat 32 (0x010 + 2 * pos)
           op := .byteWrite (halfBytes (BitVec.ofNat 16 i)) },
         { role := .countWrite, addr := s.session.base + 0x00C#32, op := .byteWrite (halfBytes c) } ]
    let granted := fun (kind : UnitKind) (first : Access) (rest : List Access) =>
      exec .portGrant s = .next
        { s with
          results :=
            { s.results with
              countCopy := c, recent := s.results.recent.setIfInBounds pos (BitVec.ofNat 16 i) }
          port := { unit := some { kind := kind, access := first, timer := 0, rest := rest, data := [] }, abandoned := none } }
    let resultBytes := fun r : SendResult =>
      [outcomeByte r.outcome, attemptByte r.last, BitVec.ofNat 8 r.attempts, BitVec.ofNat 8 r.losses] ++ wordBytes r.stamp
        ++ halfBytes (BitVec.ofNat 16 r.repeats) ++ halfBytes (BitVec.ofNat 16 r.overruns)
    let flags := fun q : QueuedFrame =>
      BitVec.ofNat 8 (q.broadcast.toNat + 2 * q.group.toNat + 4 * q.heldStandby.toNat + 8 * q.clash.toNat)
    let payloadBytes := fun q : QueuedFrame => (List.range 24).map (fun k => q.payload.getD k 0#8)
    (∀ r rest, s.results.queue = .done i r :: rest →
      granted (.completion i c) { role := .part, addr := env 40, op := .writeBurst (resultBytes r) } (tail 4#8))
    ∧ (∀ reason rest, s.results.queue = .rejected i reason :: rest →
      granted (.completion i c) { role := .part, addr := env 40, op := .byteWrite [outcomeByte reason] } (tail 6#8))
    ∧ (∀ q, s.results.queue = [] → s.director.nextWrite = some q → q.slot = some i →
      granted (.filled i c)
        { role := .part, addr := env 5
          op := .byteWrite [BitVec.ofNat 8 q.trunk.val, BitVec.ofNat 8 q.source, BitVec.ofNat 8 q.dest] }
        ({ role := .part, addr := env 8
           op := .writeBurst ([BitVec.ofNat 8 q.channel, classByte q.cls, BitVec.ofNat 8 q.length, flags q]
             ++ wordBytes q.stamp ++ payloadBytes q) } :: tail 5#8))
    ∧ (∀ r rest, s.results.queue = .round i r :: rest →
      exec .portGrant s = .next
        { s with
          port :=
            { unit := some
                { kind := .roundResult i
                  access := { role := .roundResult, addr := env 40, op := .writeBurst (resultBytes r) }
                  timer := 0, rest := [], data := [] }
              abandoned := none } }))
  ∧ ∀ s : State, s.port = { unit := none, abandoned := none } → s.session.state ≠ .standby →
    s.session.state ≠ .faulted →
    let header := fun o : Word => s.session.base + o
    let env := fun i b : Nat => s.session.base + BitVec.ofNat 32 (256 + 64 * i + b)
    let granted := fun (kind : UnitKind) (first : Access) (rest : List Access) =>
      exec .portGrant s = .next
        { s with
          port := { unit := some { kind := kind, access := first, timer := 0, rest := rest, data := [] }, abandoned := none } }
    let tallies := fun o : Trunk =>
      let c := s.results.tallies.get o
      wordBytes c.sent ++ wordBytes c.losses ++ wordBytes c.shapes ++ wordBytes c.stuck ++ wordBytes c.delivered
        ++ wordBytes c.duplicates ++ wordBytes c.refused ++ wordBytes c.malformed
    let swept := fun (u : HeaderUnit) (role : Role) (time count : Word) =>
      granted (.header u) { role := .part, addr := header 0x080, op := .writeBurst (tallies 0 ++ tallies 1) }
        [ { role := .part, addr := header 0x0C0, op := .writeBurst (tallies 2 ++ tallies 3) },
          { role := role, addr := header 0x060, op := .writeBurst (wordBytes time ++ wordBytes count) } ]
    (s.resultRequest = none → s.session.state = .stopping → s.director.nextWrite = none →
      ∀ o rest, s.director.receiveList = o :: rest →
        granted (.giveBack o.index) { role := .giveBack, addr := env o.index 0, op := .byteWrite [2#8] } [])
    ∧ (s.resultRequest = none → s.deliveryRequest = none → ∀ rest,
      (s.header = .startReads :: rest →
        granted (.header .startReads) { role := .part, addr := header 0x000, op := .read 16 }
          [{ role := .startReads, addr := header 0x040, op := .read 8 }])
      ∧ (s.header = .reloadReads :: rest →
        granted (.header .reloadReads) { role := .part, addr := header 0x008, op := .read 16 }
          [{ role := .reloadReads, addr := header 0x048, op := .read 6 }])
      ∧ (s.header = .startUnit :: rest →
        granted (.header .startUnit)
          { role := .startUnit, addr := header 0x00C
            op := .writeBurst (halfBytes s.results.countCopy ++ halfBytes s.session.number
              ++ s.results.recent.toList.flatMap halfBytes) } [])
      ∧ (∀ time count, s.header = .sweepEnd time count :: rest → swept (.sweepEnd time count) .sweepEnd time count)
      ∧ (∀ time count, s.header = .finalUnit time count :: rest → swept (.finalUnit time count) .finalUnit time count))
    ∧ (s.resultRequest = none → s.deliveryRequest = none → s.header = [] → ∀ w, s.sweeper.sweep = some w →
      (w.stage = .word0 → granted .sweeper { role := .word0, addr := env w.index 0, op := .read 1 } [])
      ∧ (w.stage = .envelope → granted .sweeper { role := .envelope, addr := env w.index 0, op := .read 16 } [])
      ∧ (w.stage = .word1 → granted .sweeper { role := .word1, addr := env w.index 4, op := .read 1 } [])
      ∧ (∀ c, w.stage = .claim c →
          granted .sweeper { role := .claim, addr := env w.index 0, op := .byteWrite [3#8] } []))

/-- A success response to an access with others behind it: a write stands in memory, a read's bytes are taken, and the
next access of the unit is issued; a success response is the completion that its access is for: the same event as the
row of that name (log 6). The bytes of a read are those that memory holds at its completion (log 9). -/
def Obligations.AccessCompletes : Prop :=
  ∀ (s : State) (u : PortUnit), s.port.unit = some u → u.timer ≤ 1000 →
    (∀ (next : Access) (rest : List Access) (bs : List Byte), u.access.role = .part → u.rest = next :: rest →
      u.access.op = .writeBurst bs ∨ u.access.op = .byteWrite bs →
      exec .accessComplete s = .next
        { s with
          memory := Memory.writeBytes s.memory u.access.addr bs
          port := { s.port with unit := some { u with access := next, timer := 0, rest := rest } } })
    ∧ (∀ (next : Access) (rest : List Access) (k : Nat), u.access.role = .part → u.rest = next :: rest →
      u.access.op = .read k →
      exec .accessComplete s = .next
        { s with
          port :=
            { s.port with
              unit := some
                { u with
                  access := next, timer := 0, rest := rest
                  data := u.data ++ Memory.readBytes s.memory u.access.addr (4 * k) } } })
    ∧ (u.access.role = .word0 → exec .accessComplete s = exec .word0ReadDone s)
    ∧ (u.access.role = .envelope → exec .accessComplete s = exec .envelopeReadDone s)
    ∧ (u.access.role = .word1 → exec .accessComplete s = exec .word1ReadDone s)
    ∧ (u.access.role = .claim → exec .accessComplete s = exec .claimWriteDone s)
    ∧ (u.access.role = .stateWrite → exec .accessComplete s = exec .stateWriteDone s)
    ∧ (u.access.role = .countWrite → exec .accessComplete s = exec .countWriteDone s)
    ∧ (u.access.role = .roundResult → exec .accessComplete s = exec .roundResultDone s)
    ∧ (u.access.role = .giveBack → exec .accessComplete s = exec .giveBackDone s)
    ∧ (u.access.role = .startReads → exec .accessComplete s = exec .startReadsDone s)
    ∧ (u.access.role = .startUnit → exec .accessComplete s = exec .startUnitDone s)
    ∧ (u.access.role = .reloadReads → exec .accessComplete s = exec .reloadReadsDone s)
    ∧ (u.access.role = .sweepEnd → exec .accessComplete s = exec .sweepEndUnitDone s)
    ∧ (u.access.role = .finalUnit → exec .accessComplete s = exec .stopFinalUnitDone s)

/-- The state write of a completion completes: the held bit of its index is cleared at that moment; a FILLED one also
takes its frame out of the queue and counts the delivery. The next write of the sequence is issued. -/
def Obligations.StateWriteCompletes : Prop :=
  ∀ (s : State) (i k : Nat) (c : Half) (a next : Access) (value : Byte) (rest : List Access), k ≤ 1000 →
    a.role = .stateWrite → a.op = .byteWrite [value] →
    let issued := fun kind : UnitKind =>
      ({ s.port with unit := some { kind := kind, access := next, timer := 0, rest := rest, data := [] } } : Port)
    let cleared := { s.sweeper with held := s.sweeper.held &&& ~~~(1#1024 <<< i) }
    (s.port.unit = some { kind := .completion i c, access := a, timer := k, rest := next :: rest, data := [] } →
      exec .stateWriteDone s = .next
        { s with
          memory := Memory.write s.memory a.addr.toNat value, port := issued (.completion i c), sweeper := cleared })
    ∧ (∀ q, s.port.unit = some { kind := .filled i c, access := a, timer := k, rest := next :: rest, data := [] } →
      s.director.queue.find? (fun x => x.slot == some i) = some q →
      ∃ t : State, exec .stateWriteDone s = .next t
        ∧ t.memory = Memory.write s.memory a.addr.toNat value ∧ t.port = issued (.filled i c) ∧ t.sweeper = cleared
        ∧ t.director = { s.director with queue := s.director.queue.filter (fun x => x.slot != some i) }
        ∧ t.results.tallies.get q.trunk
            = { s.results.tallies.get q.trunk with delivered := (s.results.tallies.get q.trunk).delivered + 1 }
        ∧ (∀ o : Trunk, o ≠ q.trunk → t.results.tallies.get o = s.results.tallies.get o)
        ∧ t.results.queue = s.results.queue ∧ t.results.countCopy = s.results.countCopy
        ∧ t.session = s.session ∧ t.regs = s.regs ∧ t.engines = s.engines ∧ t.sched = s.sched ∧ t.header = s.header)

/-- The count write of a completion completes: the written count takes its number, and COMPLETE is raised exactly when
the difference to the reported count becomes 8. The entry of a DONE or REJECTED leaves the completion queue; a FILLED
has none there, so no entry leaves it and step 1 of the resume processing owes what it owed. -/
def Obligations.CountWriteCompletes : Prop :=
  ∀ (s : State) (i : Nat) (c : Half) (a : Access) (bs : List Byte),
    a.role = .countWrite → a.op = .byteWrite bs →
    let counted := fun (queue : List Work) (session : Session) =>
      ∃ t : State, exec .countWriteDone s = .next t
        ∧ t.memory = Memory.writeBytes s.memory a.addr bs ∧ t.port = { s.port with unit := none }
        ∧ t.results.queue = queue ∧ t.results.written = c ∧ t.session = session
        ∧ ((c - s.results.reported).toNat = 8 →
            t.results.reported = c ∧ t.regs = { s.regs with intCause := s.regs.intCause ||| 1#6 })
        ∧ ((c - s.results.reported).toNat ≠ 8 → t.results.reported = s.results.reported ∧ t.regs = s.regs)
        ∧ t.results.tallies = s.results.tallies ∧ t.results.countCopy = s.results.countCopy
        ∧ t.results.recent = s.results.recent
        ∧ t.sweeper = s.sweeper ∧ t.sched = s.sched ∧ t.director = s.director ∧ t.engines = s.engines
        ∧ t.header = s.header
    (LastAccess s (.completion i c) a [] →
      counted s.results.queue.tail
        { s.session with resumeOwed := s.session.resumeOwed.map (fun k => k - 1) })
    ∧ (LastAccess s (.filled i c) a [] → counted s.results.queue s.session)

/-- A round result moves neither the count nor a held bit; a give-back at STOP clears the held bit and takes the entry
out of the receive list, without a count; when the sweep-end unit completes, it leaves the header writer and the
COMPLETE check is made. -/
def Obligations.UncountedUnitsComplete : Prop :=
  (∀ (s : State) (i : Nat) (a : Access) (bs : List Byte),
     (a.role = .roundResult → a.op = .writeBurst bs → LastAccess s (.roundResult i) a [] →
       exec .roundResultDone s = .next
         { s with
           memory := Memory.writeBytes s.memory a.addr bs, port := { s.port with unit := none }
           results := { s.results with queue := s.results.queue.tail }
           session := { s.session with resumeOwed := s.session.resumeOwed.map (fun k => k - 1) } })
     ∧ (a.role = .giveBack → a.op = .byteWrite bs → LastAccess s (.giveBack i) a [] →
       exec .giveBackDone s = .next
         { s with
           memory := Memory.writeBytes s.memory a.addr bs, port := { s.port with unit := none }
           director := { s.director with receiveList := s.director.receiveList.filter (fun o => o.index != i) }
           sweeper := { s.sweeper with held := s.sweeper.held &&& ~~~(1#1024 <<< i) } }))
  ∧ (∀ (s : State) (u : HeaderUnit) (a : Access) (bs : List Byte),
     a.role = .sweepEnd → a.op = .writeBurst bs → LastAccess s (.header u) a [] →
     let t :=
       { s with
         memory := Memory.writeBytes s.memory a.addr bs, port := { s.port with unit := none }, header := s.header.tail }
     (s.results.written = s.results.reported → exec .sweepEndUnitDone s = .next t)
     ∧ (s.results.written ≠ s.results.reported →
       exec .sweepEndUnitDone s = .next
         { t with
           results := { s.results with reported := s.results.written }
           regs := { s.regs with intCause := s.regs.intCause ||| 1#6 } }))

/-- An error response within 1 ms and a timeout put the session in FAULTED: the failing address and the fault kind are
kept, FAULT is raised, the command in progress is cut, and every collection is frozen as it stands. At 1 ms the
response and the timeout can each be taken first (log 5). -/
def Obligations.FaultEntered : Prop :=
  ∀ (s : State) (u : PortUnit), s.port.unit = some u →
    let faulted := fun (o : Host.Outcome State Fault Refusal) (kind : FaultKind) =>
      ∃ t : State, o = .next t
        ∧ t.session = { s.session with state := .faulted, faultKind := kind, inProgress := none }
        ∧ t.session.timeRuns = false
        ∧ t.port = { s.port with unit := none }
        ∧ t.regs.faultInfo = u.access.addr ∧ t.regs.intCause = s.regs.intCause ||| 16#6
        ∧ (∀ c : Command, s.session.inProgress = some c →
            t.regs.readBack = { code := c.code, result := .cutByFault, reason := .none })
        ∧ (s.session.inProgress = none → t.regs.readBack = s.regs.readBack)
        ∧ t.regs.areaBase = s.regs.areaBase ∧ t.regs.intEnable = s.regs.intEnable
        ∧ t.sweeper = { s.sweeper with timerRuns := false, again := false }
        ∧ t.sched = s.sched ∧ t.director = s.director ∧ t.results = s.results ∧ t.engines = s.engines
        ∧ t.header = s.header ∧ t.standby = s.standby
        ∧ (∀ k, u.access.op = .read k → t.memory = s.memory)
    (∀ k, u.timer ≤ 1000 → u.access.op = .read k → faulted (exec .accessError s) .readError)
    ∧ (∀ bs, u.timer ≤ 1000 → u.access.op = .writeBurst bs ∨ u.access.op = .byteWrite bs →
        faulted (exec .accessError s) .writeError)
    ∧ (1000 ≤ u.timer → faulted (exec .accessTimeout s) .timeout)

/-- What a write that failed leaves in memory: each byte it covers holds its old or its new value, every other byte its
old one, whatever the free value is (log 10). The end of the wait for an abandoned access is no fault: it changes the
port and nothing else but the bytes that a write covers, each of which then holds its old or its new value (log 10, log
11). -/
def Obligations.FailedAndAbandonedAccesses : Prop :=
  (∀ (s t : State) (u : PortUnit) (bs : List Byte), Memory.wf s.memory → bs.length ≤ 64 → s.port.unit = some u →
     u.access.op = .writeBurst bs ∨ u.access.op = .byteWrite bs →
     exec .accessError s = .next t ∨ exec .accessTimeout s = .next t →
     (∀ k v, bs[k]? = some v →
       Memory.read t.memory (u.access.addr + BitVec.ofNat 32 k).toNat
           = Memory.read s.memory (u.access.addr + BitVec.ofNat 32 k).toNat
         ∨ Memory.read t.memory (u.access.addr + BitVec.ofNat 32 k).toNat = v)
     ∧ (∀ x : Word, bs.length ≤ (x - u.access.addr).toNat →
       Memory.read t.memory x.toNat = Memory.read s.memory x.toNat))
  ∧ (∀ (s : State) (a : Abandoned), s.port.abandoned = some a →
     ∃ t : State, exec .abandonedAccessEnd s = .next t
       ∧ t.port = { s.port with abandoned := none }
       ∧ (∀ k, a.access.op = .read k → t.memory = s.memory)
       ∧ (∀ bs x, Memory.wf s.memory → bs.length ≤ 64 → a.access.op = .writeBurst bs ∨ a.access.op = .byteWrite bs →
           bs.length ≤ (x - a.access.addr).toNat → Memory.read t.memory x.toNat = Memory.read s.memory x.toNat)
       ∧ (∀ bs k v, Memory.wf s.memory → bs.length ≤ 64 → a.access.op = .writeBurst bs ∨ a.access.op = .byteWrite bs →
           bs[k]? = some v →
           Memory.read t.memory (a.access.addr + BitVec.ofNat 32 k).toNat
               = Memory.read s.memory (a.access.addr + BitVec.ofNat 32 k).toNat
             ∨ Memory.read t.memory (a.access.addr + BitVec.ofNat 32 k).toNat = v)
       ∧ t.regs = s.regs ∧ t.session = s.session ∧ t.sweeper = s.sweeper ∧ t.sched = s.sched ∧ t.engines = s.engines
       ∧ t.director = s.director ∧ t.results = s.results ∧ t.header = s.header ∧ t.standby = s.standby)

/-! ### START, RELOAD and the ends of the other commands -/

/-- The START reads return a header with a field that fails its check: AREA_INVALID with the offset of the first one,
which HeaderChecks states, and no block takes a value. A RELOAD is refused in the same way. That the read-back then shows
START or RELOAD, also after a refused write has replaced it, is of log 23. The bytes of the last burst are those that
memory holds at its completion (log 9). -/
def Obligations.HeaderRefused : Prop :=
  ∀ (s : State) (a : Access) (d : List Byte) (o : Nat) (u : HeaderUnit),
    let refused := fun code : BitVec 4 =>
      ({ s with
        port := { s.port with unit := none }
        header := s.header.tail
        session := { s.session with inProgress := none }
        regs :=
          { s.regs with
            faultInfo := BitVec.ofNat 32 o, readBack := { code := code, result := .refused, reason := .areaInvalid }
            intCause := s.regs.intCause ||| 8#6 } } : State)
    (a.role = .startReads → a.op = .read 8 → LastAccess s (.header u) a d →
      firstBad (startChecks s.session.base { first := 0, bytes := d ++ Memory.readBytes s.memory a.addr 32 }) = some o →
      exec .startReadsDone s = .next (refused 1#4))
    ∧ (a.role = .reloadReads → a.op = .read 6 → LastAccess s (.header u) a d →
      firstBad (commonChecks { first := 8, bytes := d ++ Memory.readBytes s.memory a.addr 24 }) = some o →
      exec .reloadReadsDone s = .next (refused 6#4))

/-- A header passes exactly when every field holds a value that R51 and R52 call valid; else the answer is the least
offset whose field does not. At RELOAD the fields begin at 0x008. What the record of each trunk gives its owners, byte by
byte; the bytes that RELOAD reads, from 0x008 on, give the same. -/
def Obligations.HeaderChecks : Prop :=
  ∀ (base : Word) (bs : List Byte),
    let b := fun k : Nat => (byteAt bs k).toNat
    let half := fun k : Nat => b k + 256 * b (k + 1)
    let group := fun own g : Nat => (g ≤ 62 ∨ g = 255) ∧ g ≠ own
    let record := fun r : Nat =>
      ([(r, b r ≤ 2), (r + 1, 2 ≤ b (r + 1)), (r + 2, 2 * b (r + 2) < 5 * b (r + 1)),
        (r + 3, 5 ≤ b (r + 3) ∧ b (r + 3) ≤ 15), (r + 4, b (r + 4) ≤ 62), (r + 5, group (b (r + 4)) (b (r + 5))),
        (r + 6, group (b (r + 4)) (b (r + 6))), (r + 7, group (b (r + 4)) (b (r + 7))),
        (r + 8, group (b (r + 4)) (b (r + 8))), (r + 9, b (r + 9) < 8),
        (r + 10, 1 ≤ half (r + 10) ∧ half (r + 10) ≤ 1000)] : List (Nat × Prop))
    let shared : List (Nat × Prop) :=
      [(8, 1 ≤ half 8 ∧ half 8 ≤ 1000), (10, 1 ≤ half 10)] ++ record 0x20 ++ record 0x30 ++ record 0x40 ++ record 0x50
    let first : List (Nat × Prop) :=
      [(0, half 0 + 65536 * half 2 = 3),
        (4, 16 ≤ half 4 ∧ half 4 ≤ 1024 ∧ half 4 % 16 = 0 ∧ base.toNat + 256 + 64 * half 4 ≤ 4294967296),
        (6, 1 ≤ half 6 ∧ half 6 ≤ half 4 - 1)]
    let start : HeaderBytes := { first := 0, bytes := bs }
    let reload : HeaderBytes := { first := 8, bytes := bs.drop 8 }
    AnswersFirstBad (startChecks base start) (first ++ shared)
    ∧ AnswersFirstBad (commonChecks reload) shared
    ∧ (∀ o : Trunk, trunkRecord reload o = trunkRecord start o)
    ∧ ∀ o : Trunk,
        let r := 0x20 + 16 * o.val
        let v := trunkRecord start o
        let slot := fun k : Nat => if b k = 255 then none else some (b k)
        (b r = 0 → v.mode = .off) ∧ (b r = 1 → v.mode = .listen) ∧ (b r = 2 → v.mode = .active)
        ∧ v.timing = { unit := b (r + 1), filter := b (r + 2), hold := b (r + 3) }
        ∧ v.listen.own = b (r + 4)
        ∧ v.listen.groups = ⟨slot (r + 5), slot (r + 6), slot (r + 7), slot (r + 8)⟩
        ∧ v.listen.acceptBroadcast = (byteAt bs (r + 9)).getLsbD 0
        ∧ v.windowMode = (byteAt bs (r + 9)).getLsbD 1 ∧ v.wakeEnable = (byteAt bs (r + 9)).getLsbD 2
        ∧ v.backoff = half (r + 10)

/-- A header that passes: the first part of START. Every block takes its values; the START unit is asked for; the
session stays UNSET. The bytes of the last burst are those that memory holds at its completion (log 9); the modes wait
for the second part in a field of the model (log 27). -/
def Obligations.StartFirstPart : Prop :=
  ∀ (s : State) (a : Access) (d : List Byte) (u : HeaderUnit),
    a.role = .startReads → a.op = .read 8 → LastAccess s (.header u) a d →
    let bs := d ++ Memory.readBytes s.memory a.addr 32
    let h : HeaderBytes := { first := 0, bytes := bs }
    firstBad (startChecks s.session.base h) = none →
    ∃ t : State, exec .startReadsDone s = .next t
      ∧ t.session =
          { s.session with
            n := halfAt bs 4, f := halfAt bs 6, faultKind := .none, number := s.session.number + 1
            windowLength := halfAt bs 10, startModes := Four.of (fun o => (trunkRecord h o).mode) }
      ∧ t.sweeper.period = halfAt bs 8 ∧ t.sweeper.cursor = 0 ∧ t.sweeper.held = 0#1024 ∧ t.sweeper.count = 0#32
      ∧ t.sweeper.again = false ∧ t.sweeper.reservation = none ∧ t.sweeper.sweep = none
      ∧ (∀ o : Trunk, t.sched.windowMode.get o = (trunkRecord h o).windowMode
          ∧ t.sched.backoff.get o = (trunkRecord h o).backoff ∧ t.sched.toggles.get o = 0#63
          ∧ t.director.listen.get o = (trunkRecord h o).listen ∧ t.director.dups.get o = Vector.replicate 63 none
          ∧ (t.engine o).timing = (trunkRecord h o).timing ∧ (t.engine o).mode = (s.engine o).mode
          ∧ t.standby.wakeEnable.get o = (trunkRecord h o).wakeEnable)
      ∧ t.sched.seq = 0#32 ∧ ResultsAtReset { t with header := [] }
      ∧ t.header = s.header.tail ++ [.startUnit] ∧ t.regs = s.regs ∧ t.memory = s.memory
      ∧ t.port = { s.port with unit := none } ∧ t.standby.wake = s.standby.wake

/-- The START unit completes: at one moment device time starts at 0, the session is RUNNING, each engine enters the mode
of its record, the START sweep begins with its timer, and START is done. The modes have waited in a field of the model
(log 27), and the milliseconds of device time begin a new phase at this moment (log 4). -/
def Obligations.StartUnitCompletes : Prop :=
  ∀ (s : State) (u : HeaderUnit) (a : Access) (bs : List Byte),
    a.role = .startUnit → a.op = .writeBurst bs → LastAccess s (.header u) a [] →
    ∃ t : State, exec .startUnitDone s = .next t
      ∧ t.session = { s.session with state := .running, deviceTime := 0#32, micros := 0, inProgress := none }
      ∧ t.regs = doneRegs s 1#4 ∧ t.sweeper = startedSweeper s.sweeper
      ∧ t.memory = Memory.writeBytes s.memory a.addr bs ∧ t.port = { s.port with unit := none }
      ∧ t.header = s.header.tail
      ∧ (∀ o : Trunk,
          (s.session.startModes.get o = .off → t.engine o = s.engine o)
          ∧ (s.session.startModes.get o ≠ .off →
              (t.engine o).mode = s.session.startModes.get o ∧ (t.engine o).state = .idle ∧ (t.engine o).holdClock = 0
              ∧ (t.engine o).lowTime = 0 ∧ (t.engine o).candidate = false ∧ (t.engine o).level = (s.engine o).level
              ∧ (t.engine o).timing = (s.engine o).timing))
      ∧ t.sched = s.sched ∧ t.director = s.director ∧ t.results = s.results ∧ t.standby = s.standby

/-- A RELOAD that passes its checks hands the settings to their owners and is done; N, F and the base stay. A trunk
whose addresses change loses its duplicate table, the others keep theirs. ReloadModes says what it does to the engines.
The bytes of the last burst are those that memory holds at its completion (log 9). -/
def Obligations.ReloadCompletes : Prop :=
  ∀ (s : State) (a : Access) (d : List Byte) (u : HeaderUnit),
    a.role = .reloadReads → a.op = .read 6 → LastAccess s (.header u) a d →
    let bs := d ++ Memory.readBytes s.memory a.addr 24
    let h : HeaderBytes := { first := 8, bytes := bs }
    firstBad (commonChecks h) = none →
    ∃ t : State, exec .reloadReadsDone s = .next t
      ∧ t.session = { s.session with windowLength := halfAt bs 2, inProgress := none }
      ∧ t.regs = doneRegs s 6#4 ∧ t.sweeper = { s.sweeper with period := halfAt bs 0 }
      ∧ t.standby.wake = s.standby.wake
      ∧ (∀ o : Trunk, t.sched.windowMode.get o = (trunkRecord h o).windowMode
          ∧ t.sched.backoff.get o = (trunkRecord h o).backoff
          ∧ t.director.listen.get o = (trunkRecord h o).listen
          ∧ t.standby.wakeEnable.get o = (trunkRecord h o).wakeEnable
          ∧ ((trunkRecord h o).listen.own = (s.director.listen.get o).own →
              (trunkRecord h o).listen.groups = (s.director.listen.get o).groups →
              t.director.dups.get o = s.director.dups.get o)
          ∧ ((trunkRecord h o).listen.own ≠ (s.director.listen.get o).own
              ∨ (trunkRecord h o).listen.groups ≠ (s.director.listen.get o).groups →
              t.director.dups.get o = Vector.replicate 63 none))
      ∧ t.sched.toggles = s.sched.toggles ∧ t.sched.seq = s.sched.seq
      ∧ t.director.queue = s.director.queue ∧ t.director.receiveList = s.director.receiveList
      ∧ t.memory = s.memory ∧ t.header = s.header.tail ∧ t.port = { s.port with unit := none }

/-- What a RELOAD in RUNNING or PAUSED that passes its checks does to each trunk, by its engine's old mode and the new
one. From OFF the engine takes the timing at once and enters IDLE in its new mode. To OFF it enters OFF at once where it
has no frame and no outcome to wait for (log 15), its timing taken, its entries and repetitions ended TRUNK_OFF; else
pending OFF is set and the armed entry withdrawn. To LISTEN the armed entry is withdrawn; to ACTIVE the hold clock and
the armed entry stay. New timing is stored as pending, and taken at once in IDLE or HOLDING with the line high, with no
outcome to wait for (log 36), the hold clock at 0 and the hold time computed anew. A selection follows where the mode
becomes ACTIVE, pending OFF is cleared or the window-mode flag changes. The trunks that go OFF at once hand
on what they end, trunk 0 first (log 3): entries in list order, then the repetitions that are left, TRUNK_OFF with this
moment. OffAgrees and HeldMapKept are invariants, which StepKeepsClassOrder
and StepKeepsPlaces state. -/
def Obligations.ReloadModes : Prop :=
  ∀ (s : State) (a : Access) (d : List Byte) (u : HeaderUnit),
    a.role = .reloadReads → a.op = .read 6 → LastAccess s (.header u) a d →
    let h : HeaderBytes := { first := 8, bytes := d ++ Memory.readBytes s.memory a.addr 24 }
    firstBad (commonChecks h) = none → s.session.state = .running ∨ s.session.state = .paused →
    ∃ v : State, exec .reloadReadsDone s = .next v
      ∧ (∀ o : Trunk, OffAgrees (s.engine o) →
        let e := s.engine o
        let g := v.engine o
        let r := trunkRecord h o
        let same := r.timing = e.timing ∧ e.pendingTiming = none
        let taken := (e.state = .idle ∨ e.state = .holding) ∧ e.level = .high ∧ e.attempt = none
        let selects := (r.mode = .active ∧ e.mode ≠ .active) ∨ (r.mode ≠ .off ∧ e.pendingOff = true)
          ∨ r.windowMode ≠ s.sched.windowMode.get o
        let goesOff := (e.state = .idle ∨ e.state = .holding ∨ e.state = .stuck) ∧ e.attempt = none
        let kept := (v.list o).map Entry.index = (s.list o).map Entry.index
        let noneOwned := v.list o = [] ∧ ∀ x ∈ v.sched.repeats, x.copy.trunk ≠ o
        (e.mode = .off → g.timing = r.timing ∧ g.pendingTiming = none ∧ kept
          ∧ g.level = e.level ∧ g.pendingOff = false
          ∧ (r.mode = .off → g.mode = .off ∧ g.state = .off ∧ (e.armed = none → g.armed = none))
          ∧ (r.mode ≠ .off →
              g.mode = r.mode ∧ g.state = (if g.armed = none then .idle else .holding) ∧ g.holdClock = 0
              ∧ g.lowTime = 0 ∧ g.candidate = false ∧ g.attempt = none
              ∧ (r.mode = .active → Selected v o) ∧ (r.mode = .listen → g.armed = none)))
        ∧ (e.mode ≠ .off → r.mode = .off →
          (goesOff →
            g.mode = .off ∧ g.state = .off ∧ g.pendingOff = false ∧ g.timing = r.timing ∧ g.pendingTiming = none
            ∧ g.armed = none ∧ g.drives = false ∧ g.holdClock = 0 ∧ g.lowTime = 0 ∧ g.recoveryTime = 0
            ∧ g.buffer.octets = [] ∧ noneOwned)
          ∧ (¬ goesOff →
            g.mode = e.mode ∧ g.pendingOff = true ∧ g.armed = none ∧ g.attempt = e.attempt ∧ kept
            ∧ g.state = (if e.state = .holding ∧ e.armed ≠ none then .idle else e.state)))
        ∧ (e.mode ≠ .off → r.mode ≠ .off →
          g.mode = r.mode ∧ g.pendingOff = false ∧ g.attempt = e.attempt ∧ kept ∧ g.level = e.level
          ∧ g.pulse = e.pulse ∧ g.buffer = e.buffer ∧ g.window = e.window
          ∧ (r.mode = .listen → g.armed = none
              ∧ g.state = (if e.state = .holding ∧ e.armed ≠ none then .idle else e.state))
          ∧ (r.mode = .active → selects → Selected v o)
          ∧ (r.mode = .active → ¬ selects →
              g.armed.map Armed.index = e.armed.map Armed.index ∧ g.state = e.state
              ∧ (same ∨ ¬ taken → g.armed = e.armed))
          ∧ ((same ∨ ¬ taken) → g.holdClock = e.holdClock))
        ∧ (e.mode ≠ .off → r.mode ≠ .off ∨ ¬ goesOff →
          (same → g.timing = e.timing ∧ g.pendingTiming = none)
          ∧ (¬ same → taken → g.timing = r.timing ∧ g.pendingTiming = none ∧ g.holdClock = 0
              ∧ ∀ m, g.armed = some m → m.holdUnits = r.timing.hold + 2 * m.cls.code + 4 * m.retry.toNat)
          ∧ (¬ same → ¬ taken → g.timing = e.timing ∧ g.pendingTiming = some r.timing)))
      ∧ ((∀ o : Trunk, OffAgrees (s.engine o)) → HeldMapKept s →
        let off := fun o : Trunk => goesOffAtOnce (s.engine o) (trunkRecord h o).mode
        ∃ left : Trunk → List RepeatEntry,
          (∀ o : Trunk, LeftOver s.sched.repeats o (s.list o) (left o))
          ∧ v.results =
              { s.results with
                queue := s.results.queue
                  ++ [0, 1, 2, 3].flatMap (fun o : Trunk =>
                    if off o = true then
                      trunkEnds s.sched.repeats (s.list o) (left o) .trunkOff s.session.deviceTime
                    else []) }
          ∧ v.sched.repeats = s.sched.repeats.filter (fun x => !off x.copy.trunk))

/-- SETTLING ends when its five conditions hold together: the COMPLETE check is made, the session is STANDBY, and
STANDBY is done. The resume processing ends when step 1 owes nothing: one slot assignment, the sweep of RESUME with its
timer, and RESUME is done, at one moment. -/
def Obligations.SettlingAndResumeEnd : Prop :=
  (∀ s : State, s.session.state = .settling → s.sweeper.sweep = none → (∀ t : Trunk, s.inFlight t = false) →
     s.results.queue = [] → (∀ q ∈ s.director.queue, q.slot = none) → s.header = [] → s.port.unit = none →
     let standby := { s.session with state := .standby, inProgress := none }
     (s.results.written = s.results.reported →
       exec .settlingEnd s = .next { s with session := standby, regs := doneRegs s 4#4 })
     ∧ (s.results.written ≠ s.results.reported →
       exec .settlingEnd s = .next
         { s with
           session := standby, results := { s.results with reported := s.results.written }
           regs :=
             { s.regs with
               intCause := s.regs.intCause ||| 1#6 ||| 8#6
               readBack := { code := 4#4, result := .done, reason := .none } } }))
  ∧ (∀ s : State, s.session.state = .running → s.session.resumeOwed = some 0 →
     exec .resumeResultsDone s = .next
       { s with
         session := { s.session with resumeOwed := none, inProgress := none }
         director :=
           { s.director with
             queue := (assignFrom [] s.director.queue s.director.receiveList).1
             receiveList := (assignFrom [] s.director.queue s.director.receiveList).2 }
         sweeper := startedSweeper s.sweeper
         regs := doneRegs s 3#4 })

/-- STOPPING ends when its conditions hold together: the final unit is asked for with the device time of the moment
and the sweep count unchanged. When it completes, the COMPLETE check is made, every engine enters OFF, the session is
UNSET, and STOP is done. That a trunk has had its STOP processing is a field of the model (log 28). -/
def Obligations.StopEnds : Prop :=
  (∀ s : State, s.session.state = .stopping → (∀ t : Trunk, s.sched.stopDone.get t = true) → s.sched.repeats = [] →
    s.sweeper.sweep = none → s.results.queue = [] → s.director.queue = [] → s.director.receiveList = [] →
    (∀ x ∈ s.header, ∀ time count, x ≠ .finalUnit time count) →
    exec .stoppingEnd s = .next
      { s with header := s.header ++ [.finalUnit s.session.deviceTime s.sweeper.count] })
  ∧ (∀ (s : State) (u : HeaderUnit) (a : Access) (bs : List Byte),
    a.role = .finalUnit → a.op = .writeBurst bs → LastAccess s (.header u) a [] →
    ∃ t : State, exec .stopFinalUnitDone s = .next t
      ∧ t.session = { s.session with state := .unset, inProgress := none }
      ∧ (∀ o : Trunk, (t.engine o).state = .off ∧ (t.engine o).mode = .off ∧ (t.engine o).drives = false
          ∧ (t.engine o).armed = none ∧ (t.engine o).attempt = none ∧ (t.engine o).pendingTiming = none
          ∧ (t.engine o).timing = (s.engine o).timing)
      ∧ t.regs.readBack = { code := 5#4, result := .done, reason := .none }
      ∧ (s.results.written = s.results.reported → t.regs.intCause = s.regs.intCause ||| 8#6)
      ∧ (s.results.written ≠ s.results.reported → t.regs.intCause = s.regs.intCause ||| 1#6 ||| 8#6)
      ∧ t.results.reported = s.results.written ∧ t.results.tallies = s.results.tallies
      ∧ t.memory = Memory.writeBytes s.memory a.addr bs ∧ t.header = s.header.tail
      ∧ t.sched = s.sched ∧ t.director = s.director ∧ t.sweeper = s.sweeper ∧ t.standby = s.standby)

/-! ### The line: edges, lead marks, foreign frames -/

/-- Outside a frame a recognised edge returns the clocks of the line to 0 and changes nothing else; a fall in IDLE or
HOLDING begins a candidate lead mark. An edge to the level that the line has is none. While a frame is followed, a fall
that shows nothing special takes the lead, or appends a symbol to the buffer: a 1 for a gap of 2U or more, each eighth
symbol completing an octet that adds to the sum, the length learnt with symbol 21; a rise takes nothing. In the reply
window of a received frame an edge returns the clocks to 0 alone. A candidate that has been low
for 6U is a lead mark: the engine enters RECEIVING with an empty buffer. A row sent before its moment changes nothing
(log 1). -/
def Obligations.EdgesAndLeadMark : Prop :=
  ∀ (s : State) (t : Trunk),
    let e := s.engine t
    let u := e.timing.unit
    (e.state = .idle ∨ e.state = .holding ∨ e.state = .stuck → e.pulse = .quiet →
      (e.level = .high →
        exec (.recognisedEdge t .low) s = .next (s.setEngine t { edged e .low with candidate := e.state != .stuck }))
      ∧ (e.level = .low →
        exec (.recognisedEdge t .high) s = .next
          (s.setEngine t
            { edged e .high with
              candidate := false, reply := if e.reply = .low then .rose e.lowTime else e.reply })))
    ∧ exec (.recognisedEdge t e.level) s = .next s
    ∧ (e.state = .idle ∨ e.state = .holding → e.level = .low → e.candidate = true →
      (60 * u ≤ e.lowTime →
        exec (.leadMark t) s = .next
          (s.setEngine t
            { e with
              state := .receiving, buffer := Buffer.cleared false, holdClock := 0, window := none
              candidate := false }))
      ∧ (e.lowTime < 60 * u → exec (.leadMark t) s = .next s))
    ∧ (let b := e.buffer
      let symbol := decide (20 * u ≤ e.edgeTime)
      let bits := b.bits ++ [symbol]
      let octet : Byte := BitVec.ofNat 8 (bits.foldl (fun n x => 2 * n + x.toNat) 0)
      let length := if b.count = 20 then some octet.toNat else b.length
      let taken : Buffer :=
        if b.leadTaken = false then { b with leadTaken := true }
        else if bits.length = 8 then
          { b with
            count := b.count + 1, bits := [], octets := b.octets ++ [octet], sum := b.sum + octet, length := length }
        else { b with count := b.count + 1, bits := bits, length := length }
      let rose := { edged e .high with candidate := false, reply := if e.reply = .low then .rose e.lowTime else e.reply }
      (e.state = .receiving → e.window = none → e.pulse = .quiet →
        (e.level = .high → e.judgeEdge .low = .plain →
          exec (.recognisedEdge t .low) s = .next
            (s.setEngine t { edged e .low with candidate := false, buffer := taken }))
        ∧ (e.level = .low → e.judgeEdge .high = .plain →
          exec (.recognisedEdge t .high) s = .next (s.setEngine t rose)))
      ∧ (e.state = .answering ∨ (e.state = .receiving ∧ e.window ≠ none) → e.pulse ≠ .gap →
          (∀ w, e.pulse ≠ .rising w) →
        (e.level = .high →
          exec (.recognisedEdge t .low) s = .next (s.setEngine t { edged e .low with candidate := false }))
        ∧ (e.level = .low → e.drives = false →
          exec (.recognisedEdge t .high) s = .next (s.setEngine t rose))))

/-- How a foreign frame is judged, by edge and by time (R5, R6, R7, R9, R11), and what a malformed frame does: it is
counted, the frame ends, and a selection follows. At a limit by time an edge taken first counts as within it (log 5);
which low is a candidate lead mark after a malformed frame is log 14. -/
def Obligations.ForeignFrameJudged : Prop :=
  (∀ b : Buffer, b.fieldError = true ↔
    (b.count = 2 ∧ b.field 0 2 = 3) ∨ (b.count = 14 ∧ b.field 8 6 = 63)
      ∨ (b.count = 16 ∧ b.field 2 6 = 63 ∧ b.symbol 15 = true) ∨ (b.count = 21 ∧ 25 ≤ b.field 16 5))
  ∧ ∀ (s : State) (t : Trunk),
    let e := s.engine t
    let u := e.timing.unit
    let d := e.edgeTime
    e.state = .receiving → e.window = none →
    (e.buffer.leadTaken = false →
      (d ≤ 100 * u → e.judgeEdge .high = .plain) ∧ (100 * u < d → e.judgeEdge .high = .malformed .shapeError)
      ∧ (d < 30 * u → e.judgeEdge .low = .malformed .shapeError)
      ∧ (30 * u ≤ d → d ≤ 50 * u → e.judgeEdge .low = .plain)
      ∧ (30 * u ≤ d → 50 * u < d → e.judgeEdge .low = .malformed .truncation)
      ∧ (e.level = .low → e.malformedByTime = if 100 * u ≤ d then some .shapeError else none)
      ∧ (e.level = .high → e.malformedByTime = if 50 * u ≤ d then some .truncation else none))
    ∧ (e.buffer.leadTaken = true →
      (d < 5 * u ∨ 15 * u < d → e.judgeEdge .high = .malformed .shapeError)
      ∧ (5 * u ≤ d → d ≤ 15 * u → e.buffer.complete = false → e.judgeEdge .high = .plain)
      ∧ (5 * u ≤ d → d ≤ 15 * u → e.buffer.complete = true → e.buffer.sum = 255#8 → e.judgeEdge .high = .goodFrame)
      ∧ (5 * u ≤ d → d ≤ 15 * u → e.buffer.complete = true → e.buffer.sum ≠ 255#8 →
          e.judgeEdge .high = .malformed .checkFailure)
      ∧ (d < 5 * u → e.judgeEdge .low = .malformed .shapeError)
      ∧ (5 * u ≤ d → 45 * u < d → e.judgeEdge .low = .malformed .truncation)
      ∧ (5 * u ≤ d → d ≤ 45 * u →
          e.judgeEdge .low = if (e.buffer.push (decide (20 * u ≤ d))).fieldError then .malformed .fieldError else .plain)
      ∧ (e.level = .low → e.malformedByTime = if 15 * u ≤ d then some .shapeError else none)
      ∧ (e.level = .high → e.malformedByTime = if 45 * u ≤ d then some .truncation else none))
    ∧ (let ended := fun (v : State) (l : Level) (candidate : Bool) =>
        exec (.malformed t) s = .next v ∧ FrameOver s v t ∧ (v.engine t).level = l ∧ (v.engine t).candidate = candidate
        ∧ v.results.tallies.get t
            = { s.results.tallies.get t with malformed := (s.results.tallies.get t).malformed + 1 }
        ∧ (∀ o : Trunk, o ≠ t → v.results.tallies.get o = s.results.tallies.get o)
        ∧ v.results.queue = s.results.queue ∧ v.director = s.director ∧ v.regs = s.regs ∧ v.standby = s.standby
      (e.malformedByTime ≠ none → e.edgeDue = false → ∃ v, ended v e.level false)
      ∧ (∀ l k, e.level ≠ l → e.drives = false → e.malformedByTime = none → e.judgeEdge l = .malformed k →
          ∃ v, ended v l (l == .low)))

/-- The tail rise of a foreign frame that passes its check: the address match, the duplicate test, the room in the
delivery queue, the slot assignment that follows, but not in SETTLING, in STANDBY or while RESUME still owes results,
the tallies and causes, and the answer. -/
def Obligations.GoodFrameDecided : Prop :=
  ∀ (s : State) (t : Trunk),
    let e := s.engine t
    let g := frameOfOctets e.buffer.octets
    let l := s.director.listen.get t
    let c := s.results.tallies.get t
    let group := some g.dest = l.groups.t0 ∨ some g.dest = l.groups.t1 ∨ some g.dest = l.groups.t2
      ∨ some g.dest = l.groups.t3
    let broadcast := g.dest = 63 ∧ l.acceptBroadcast = true
    let matched := g.dest = l.own ∨ group ∨ broadcast
    let values : Duplicate := { toggle := g.toggle, length := g.length, check := g.check }
    let known := g.dest = l.own ∧ (s.director.dups.get t)[g.source]? = some (some values)
    let isOpen := s.session.state = .running ∨ s.session.state = .paused ∨ s.session.state = .settling
      ∨ s.session.state = .standby
    let withTally := fun x : Tally => { s.results with tallies := s.results.tallies.set t x }
    let answered := fun (v : State) (o : AnswerOrder) =>
      (g.replyWanted = true →
        (v.engine t).window = some 0 ∧ (v.engine t).state = (if o = .silent then .receiving else .answering)
        ∧ (o ≠ .silent → (v.engine t).answer = o) ∧ (v.engine t).armed = e.armed ∧ v.sched = s.sched)
      ∧ (g.replyWanted = false → FrameOver s v t)
    e.state = .receiving → e.window = none → e.level = .low → e.drives = false → e.buffer.leadTaken = true →
    e.buffer.complete = true → e.buffer.sum = 255#8 →
    5 * e.timing.unit ≤ e.edgeTime → e.edgeTime ≤ 15 * e.timing.unit →
    ∃ v : State, exec (.goodFrame t) s = .next v
      ∧ (v.engine t).level = .high ∧ (v.engine t).buffer.octets = [] ∧ SameElsewhere s v ∧ OtherTrunksSame s v t
      ∧ (¬ matched →
          v.director = s.director ∧ v.results = s.results ∧ v.regs = s.regs ∧ v.standby = s.standby
          ∧ answered v .silent)
      ∧ (known →
          v.director = s.director ∧ v.results = withTally { c with duplicates := c.duplicates + 1 }
          ∧ v.regs = s.regs ∧ v.standby = s.standby ∧ answered v .accept)
      ∧ (matched → ¬ known → isOpen → s.director.queue.length < 6 →
          (∃ q : QueuedFrame,
            q.trunk = t ∧ q.source = g.source ∧ q.dest = g.dest ∧ q.channel = g.channel ∧ q.cls = g.cls
            ∧ q.length = g.length ∧ q.payload = g.payload ∧ q.stamp = s.session.deviceTime
            ∧ (q.broadcast = true ↔ g.dest ≠ l.own ∧ ¬ group ∧ broadcast) ∧ (q.group = true ↔ g.dest ≠ l.own ∧ group)
            ∧ (q.heldStandby = true ↔ s.session.state = .standby) ∧ (q.clash = true ↔ g.source = l.own)
            ∧ q.slot = none
            ∧ ((s.session.state = .running ∨ s.session.state = .paused) → s.session.resumeOwed = none →
                (v.director.queue, v.director.receiveList)
                  = assignFrom [] (s.director.queue ++ [q]) s.director.receiveList)
            ∧ (s.session.state = .settling ∨ s.session.state = .standby
                ∨ (s.session.state = .running ∧ s.session.resumeOwed ≠ none) →
                v.director.queue = s.director.queue ++ [q] ∧ v.director.receiveList = s.director.receiveList))
          ∧ (g.dest = l.own →
              v.director.dups.get t = (s.director.dups.get t).setIfInBounds g.source (some values))
          ∧ (g.dest ≠ l.own → v.director.dups = s.director.dups)
          ∧ v.results = s.results ∧ answered v .accept
          ∧ (s.session.state = .standby → s.standby.wakeEnable.get t = true → s.standby.wake = false →
              v.standby = { s.standby with wake := true }
              ∧ v.regs = { s.regs with intCause := s.regs.intCause ||| 32#6 })
          ∧ (s.session.state ≠ .standby ∨ s.standby.wakeEnable.get t = false ∨ s.standby.wake = true →
              v.standby = s.standby ∧ v.regs = s.regs))
      ∧ (matched → ¬ known → isOpen → 6 ≤ s.director.queue.length →
          v.director = s.director ∧ v.results = withTally { c with refused := c.refused + 1 }
          ∧ v.regs = { s.regs with intCause := s.regs.intCause ||| 2#6 } ∧ v.standby = s.standby ∧ answered v .busy)
      ∧ (matched → ¬ known → s.session.state = .stopping ∨ s.session.state = .faulted →
          v.director = s.director ∧ v.results = withTally { c with refused := c.refused + 1 }
          ∧ v.regs = s.regs ∧ v.standby = s.standby ∧ answered v .busy)

/-- The answer pulse begins 2U after the tail rise and lasts 2U or 5U; the frame ends at the close of the window, 9U
after the tail rise, and a selection follows. A row sent before its moment changes nothing (log 1). -/
def Obligations.AnswersAndFrameEnd : Prop :=
  ∀ (s : State) (t : Trunk),
    let e := s.engine t
    let u := e.timing.unit
    (∀ w, e.state = .answering → e.pulse = .quiet → e.window = some w →
      (20 * u ≤ w → exec (.answerPulseStart t) s = .next (s.setEngine t { e with pulse := .answer 0 }))
      ∧ (w < 20 * u → exec (.answerPulseStart t) s = .next s))
    ∧ (∀ w, e.state = .answering → e.pulse = .answer w →
      (e.answer = .accept → 20 * u ≤ w → exec (.answerPulseEnd t) s = .next (s.setEngine t { e with pulse := .answered }))
      ∧ (e.answer = .accept → w < 20 * u → exec (.answerPulseEnd t) s = .next s)
      ∧ (e.answer = .busy → 50 * u ≤ w → exec (.answerPulseEnd t) s = .next (s.setEngine t { e with pulse := .answered }))
      ∧ (e.answer = .busy → w < 50 * u → exec (.answerPulseEnd t) s = .next s))
    ∧ (∀ w, { e with pulse := .answer w }.drives = true) ∧ { e with pulse := .answered }.drives = false
    ∧ (∀ w, e.state = .receiving ∨ e.state = .answering → e.window = some w →
      (90 * u ≤ w →
        ∃ v, exec (.foreignFrameEnded t) s = .next v ∧ FrameOver s v t ∧ (v.engine t).level = e.level
          ∧ (v.engine t).candidate = false ∧ v.director = s.director ∧ v.results = s.results ∧ v.regs = s.regs
          ∧ v.standby = s.standby)
      ∧ (w < 90 * u → exec (.foreignFrameEnded t) s = .next s))

/-- What the scheduler's frames say is what a receiver reads: the symbols of an attempt, taken one by one, give back its
octets, complete, with their sum 255, and the fields of the entry. -/
def Obligations.SentFramesAreReceived : Prop :=
  ∀ (s : State) (t : Trunk) (i : Nat) (c : SendCopy),
    c.dest ≤ 63 → c.channel ≤ 7 → c.length ≤ 24 → c.payload.length = c.length →
    (s.director.listen.get t).own ≤ 62 →
    let a := s.formAttempt t i c
    let taken := fun k : Nat =>
      (List.range k).foldl (fun b p => b.push (a.symbol p)) { Buffer.cleared false with leadTaken := true }
    (taken (32 + 8 * c.length)).octets = a.octets
    ∧ (taken (32 + 8 * c.length)).sum = 255#8
    ∧ (∀ k, k ≤ 32 + 8 * c.length → ((taken k).complete = true ↔ k = 32 + 8 * c.length))
    ∧ (∀ k, k ≤ 32 + 8 * c.length → ¬ (c.dest = 63 ∧ c.replyWanted = true) → (taken k).fieldError = false)
    ∧ frameOfOctets a.octets
        = { cls := c.cls, dest := c.dest, source := (s.director.listen.get t).own
            toggle := (s.sched.toggles.get t).getLsbD c.dest, replyWanted := c.replyWanted, length := c.length
            channel := c.channel, payload := c.payload, check := a.check }

/-! ### Sending -/

/-- Hold expiry in a RUNNING session: the armed entry starts its lead if it is eligible; if not, it is withdrawn, and the
first eligible entry is armed, or started at once when the hold clock has reached its hold time. In every other session
state, in an engine that is not HOLDING, not ACTIVE or has pending OFF, with no armed entry, and before the hold time,
nothing changes and no lead starts (log 1). -/
def Obligations.LeadStarts : Prop :=
  (∀ (s : State) (t : Trunk),
    let e := s.engine t
    s.session.state ≠ .running ∨ e.state ≠ .holding ∨ e.mode ≠ .active ∨ e.pendingOff = true ∨ e.armed = none
      ∨ (∃ m, e.armed = some m ∧ e.holdClock < m.holdUnits * (10 * e.timing.unit)) →
    exec (.holdExpiry t) s = .next s)
  ∧ ∀ (s : State) (t : Trunk) (m : Armed) (x : Entry),
    let e := s.engine t
    s.session.state = .running → e.state = .holding → e.mode = .active → e.pendingOff = false → e.armed = some m →
    m.holdUnits * (10 * e.timing.unit) ≤ e.holdClock → s.findEntry t m.index = some x →
    (Eligible s t x →
      ∃ v, exec (.holdExpiry t) s = .next v ∧ LeadStarted s v t x ∧ OtherTrunksSame s v t ∧ SameOutsideTrunks s v
        ∧ v.list t = (s.list t).map (fun y => if y.index = x.index then inFlightOf y else y))
    ∧ (¬ Eligible s t x → (∀ y ∈ s.list t, ¬ Eligible s t y) →
      ∃ v, exec (.holdExpiry t) s = .next v ∧ OtherTrunksSame s v t ∧ SameOutsideTrunks s v
        ∧ v.engine t = { e with armed := none, state := .idle } ∧ v.list t = (s.list t).map unarmed)
    ∧ (∀ y before after, ¬ Eligible s t x → s.list t = before ++ y :: after → (∀ z ∈ before, ¬ Eligible s t z) →
      Eligible s t y → s.findEntry t y.index = some y →
      let hold := e.timing.hold + 2 * y.copy.cls.code + 4 * y.retry.toNat
      ∃ v, exec (.holdExpiry t) s = .next v ∧ OtherTrunksSame s v t ∧ SameOutsideTrunks s v
        ∧ (hold * (10 * e.timing.unit) ≤ e.holdClock →
            LeadStarted s v t y
            ∧ v.list t = (s.list t).map (fun z => if z.index = y.index then inFlightOf z else unarmed z))
        ∧ (e.holdClock < hold * (10 * e.timing.unit) →
            v.engine t = { e with armed := some { index := y.index, cls := y.copy.cls, retry := y.retry, holdUnits := hold } }
            ∧ v.list t = (s.list t).map (fun z => if z.index = y.index then { z with condition := .armed } else unarmed z)))

/-- The elements of an own frame: a mark is released after 8U or 1U; a gap that lasts 4U, 1U or 3U is ended by the
next mark; a fall that the gap allows begins that mark at once; a rise within 2U of the release begins the gap. A row
sent before its moment changes nothing (log 1). -/
def Obligations.OwnElements : Prop :=
  ∀ (s : State) (t : Trunk) (a : Attempt),
    let e := s.engine t
    let u := e.timing.unit
    let d := e.edgeTime
    let becomes := fun (c : Instr) (g : Engine) => exec c s = .next (s.setEngine t g)
    let next := fun g : Engine =>
      if a.position + 1 < 32 + 8 * a.length then
        { g with pulse := .mark 0, attempt := some { a with position := a.position + 1 } }
      else { g with pulse := .mark 0, state := .sending .tail }
    let fallen := { edged e .low with candidate := false, buffer := e.bufferAfterFall }
    e.attempt = some a →
    (∀ w, e.pulse = .mark w →
      (e.state = .sending .lead → 80 * u ≤ w → becomes (.markOrGapLengthElapsed t) { e with pulse := .rising 0 })
      ∧ (e.state = .sending .lead → w < 80 * u → exec (.markOrGapLengthElapsed t) s = .next s)
      ∧ (e.state = .sending .symbols ∨ e.state = .sending .tail → 10 * u ≤ w →
          becomes (.markOrGapLengthElapsed t) { e with pulse := .rising 0 })
      ∧ (e.state = .sending .symbols ∨ e.state = .sending .tail → w < 10 * u →
          exec (.markOrGapLengthElapsed t) s = .next s)
      ∧ (e.state = .sending .lead → e.level = .high →
          becomes (.recognisedEdge t .low) { edged e .low with candidate := false })
      ∧ (e.state = .sending .symbols ∨ e.state = .sending .tail → e.level = .high →
          becomes (.recognisedEdge t .low) fallen))
    ∧ (∀ w, e.pulse = .rising w → e.state = .sending .lead ∨ e.state = .sending .symbols → e.level = .low →
        w ≤ 20 * u → e.reply = .unset →
        becomes (.recognisedEdge t .high) { edged e .high with candidate := false, pulse := .gap })
    ∧ (e.pulse = .gap → e.state = .sending .lead →
        (40 * u ≤ d → becomes (.markOrGapLengthElapsed t) { e with pulse := .mark 0, state := .sending .symbols })
        ∧ (d < 40 * u → exec (.markOrGapLengthElapsed t) s = .next s)
        ∧ (30 * u ≤ d → e.level = .high →
            becomes (.recognisedEdge t .low) { fallen with pulse := .mark 0, state := .sending .symbols }))
    ∧ (e.pulse = .gap → e.state = .sending .symbols → a.symbol a.position = false →
        (10 * u ≤ d → becomes (.markOrGapLengthElapsed t) (next e))
        ∧ (d < 10 * u → exec (.markOrGapLengthElapsed t) s = .next s)
        ∧ (5 * u ≤ d → e.level = .high → becomes (.recognisedEdge t .low) (next fallen)))
    ∧ (e.pulse = .gap → e.state = .sending .symbols → a.symbol a.position = true →
        (30 * u ≤ d → becomes (.markOrGapLengthElapsed t) (next e))
        ∧ (d < 30 * u → exec (.markOrGapLengthElapsed t) s = .next s)
        ∧ (20 * u ≤ d → e.level = .high → becomes (.recognisedEdge t .low) (next fallen)))

/-- An arbitration loss, in the gap of a 1, and the SHAPE endings of an attempt in SENDING: at a fall too early in a
gap, at a line that has not fallen 0.5U after the engine began to pull, and at a line still low 2U after the release.
The low that begins at a fall which ends an attempt SHAPE is a candidate lead mark; one in progress at a SHAPE by time
is none (log 14). -/
def Obligations.LostAndShape : Prop :=
  ∀ (s : State) (t : Trunk) (a : Attempt),
    let e := s.engine t
    let u := e.timing.unit
    let d := e.edgeTime
    let ended := fun g : Engine =>
      ((s.setEngine t (withoutAttempt (atFrameEnd g))).tally t (fun c => { c with shapes := c.shapes + 1 })).outcome t
        a.index .shape
    e.attempt = some a →
    (e.state = .sending .symbols → e.pulse = .gap → e.level = .high → a.symbol a.position = true →
      5 * u ≤ d → d < 20 * u →
      exec (.lost t) s = .next
        (((s.setEngine t
            { withoutAttempt (edged e .low) with
              state := .receiving, pulse := .quiet, window := none, candidate := false
              buffer := { e.bufferAfterFall with own := false } }).tally t
            (fun c => { c with losses := c.losses + 1 })).outcome t a.index .lost))
    ∧ (e.pulse = .gap → e.level = .high →
      (e.state = .sending .lead ∧ d < 30 * u) ∨ (e.state = .sending .symbols ∧ d < 5 * u) →
      let v := ended (edged e .low)
      exec (.shape t) s = .next (v.setEngine t { v.engine t with candidate := true }))
    ∧ (∀ p w, e.state = .sending p → e.pulse = .mark w → e.level = .high → 5 * u ≤ w → e.edgeDue = false →
      exec (.shape t) s = .next (ended e))
    ∧ (∀ p w, e.state = .sending p → e.pulse = .rising w → e.level = .low → 20 * u ≤ w → e.edgeDue = false →
      exec (.shape t) s = .next (ended e))

/-- The tail rise of an own frame, with and without a reply window, and the close of the window 9U after it. A row
sent before its moment changes nothing (log 1). -/
def Obligations.TailAndWindowClose : Prop :=
  ∀ (s : State) (t : Trunk) (a : Attempt) (w : Nat),
    let e := s.engine t
    let u := e.timing.unit
    let sent := fun c : Tally => { c with sent := c.sent + 1 }
    (e.attempt = some a → e.state = .sending .tail → e.pulse = .rising w → e.level = .low → w ≤ 20 * u →
      (a.replyWanted = true →
        exec (.tailReached t) s = .next
          ((s.setEngine t
            { edged e .high with
              state := .replyWait, window := some 0, reply := .waiting, pulse := .quiet, candidate := false
              buffer := Buffer.cleared false }).tally t sent))
      ∧ (a.replyWanted = false →
        exec (.tailReached t) s = .next
          (((s.setEngine t (withoutAttempt (atFrameEnd (edged e .high)))).tally t sent).outcome t a.index .sent)))
    ∧ (e.state = .replyWait → e.window = some w →
      (90 * u ≤ w → exec (.replyWindowClose t) s = .next (s.setEngine t (atFrameEnd e)))
      ∧ (w < 90 * u → exec (.replyWindowClose t) s = .next s))

/-- The reply is classified by the first low that begins 1U to 3U after the tail rise, and settled at the moment that
R14 gives. A row sent before its moment changes nothing (log 1); at 7U an edge taken first counts as within the limit
(log 5). -/
def Obligations.ReplyClassified : Prop :=
  ∀ (s : State) (t : Trunk),
    let e := s.engine t
    let u := e.timing.unit
    (∀ w, e.state = .replyWait → e.pulse = .quiet → e.window = some w → e.level = .high → e.reply = .waiting →
      exec (.recognisedEdge t .low) s = .next
        (s.setEngine t
          { edged e .low with candidate := false, reply := if 10 * u ≤ w ∧ w ≤ 30 * u then .low else .waiting }))
    ∧ (e.state = .replyWait → e.pulse = .quiet → e.level = .low → e.reply = .low →
      exec (.recognisedEdge t .high) s = .next
        (s.setEngine t { edged e .high with candidate := false, reply := .rose e.lowTime }))
    ∧ (∀ a : Attempt, e.attempt = some a → e.state.isSending = false →
      let settles := fun o : AttemptOutcome =>
        exec (.replySettled t) s = .next
          (((s.setEngine t (withoutAttempt e)).tally t
            (fun c => if o = .shape then { c with shapes := c.shapes + 1 } else c)).outcome t a.index o)
      (e.reply = .low → 70 * u ≤ e.lowTime → settles .shape)
      ∧ (e.reply = .low → e.lowTime < 70 * u → exec (.replySettled t) s = .next s)
      ∧ ((e.window = none ∨ ∃ w, e.window = some w ∧ 90 * u ≤ w) →
        (e.reply = .waiting → settles .noReply)
        ∧ (∀ w, e.reply = .rose w →
          (w < 10 * u → settles .shape)
          ∧ (10 * u ≤ w → w < 35 * u → settles .accepted)
          ∧ (35 * u ≤ w → w ≤ 70 * u → settles .busy)
          ∧ (70 * u < w → 10 * u ≤ w → settles .shape)))
      ∧ (∀ w, e.window = some w → w < 90 * u → e.reply = .waiting ∨ (∃ k, e.reply = .rose k) →
        exec (.replySettled t) s = .next s))

/-- What the scheduler does at an outcome: the attempt is recorded, the entry is decided by the first case that
applies, the toggle flips at ACCEPTED alone; a finished round goes to the repeat table, whose part in it
DueTimesAndRounds states. In STOPPING the trunk then has its STOP processing: an entry that the outcome finishes is
handed on first, and the entries that stay, the one that retries, rests or lost among them, finish STOPPED. Frozen, the
scheduler does nothing. That a trunk has had its STOP processing is a field of the model (log 28). The invariant
HeldMapKept, which StepKeepsPlaces states, gives distinct indices. -/
def Obligations.OutcomeDecided : Prop :=
  ∀ (s : State) (t : Trunk) (i : Nat) (o : AttemptOutcome) (x : Entry),
    let v := s.outcome t i o
    let losses := if o = .lost then min 255 (x.losses + 1) else x.losses
    let failures := if o = .busy ∨ o = .noReply ∨ o = .shape then x.failures + 1 else x.failures
    let finishes := fun code : ResultCode =>
      let ended := s.roundEnded i code { last := some o, attempts := x.attempts, losses := losses } s.session.deviceTime
      (∀ y ∈ v.list t, y.index ≠ i)
      ∧ (x.round = true → v.results = ended.results ∧ v.sched.repeats = ended.sched.repeats)
      ∧ (x.round = false →
          v.results.queue = s.results.queue
            ++ [.done i
                { outcome := code, last := some o, attempts := x.attempts, losses := losses
                  stamp := s.session.deviceTime, repeats := 0, overruns := 0 }])
    let stays := fun (c : Condition) (retry : Bool) =>
      v.results = s.results
      ∧ (v.list t).map Entry.index = (s.list t).map Entry.index
      ∧ ∃ y ∈ v.list t, y.index = i ∧ y.copy = x.copy ∧ y.round = x.round ∧ y.seq = x.seq ∧ y.attempts = x.attempts
          ∧ y.losses = losses ∧ y.failures = failures ∧ y.last = some o ∧ y.retry = retry ∧ y.endMark = x.endMark
          ∧ y.joined = x.joined ∧ (y.condition = c ∨ (c = .waiting ∧ y.condition = .armed))
    (s.schedulerLive = false → v = s)
    ∧ (s.schedulerLive = true → s.findEntry t i = some x → s.session.state ≠ .stopping →
      ((s.engine t).takesArming = true → Selected v t)
      ∧ (o = .accepted → finishes .accepted
          ∧ v.sched.toggles.get t = s.sched.toggles.get t ^^^ (1#63 <<< x.copy.dest)
          ∧ ∀ z : Trunk, z ≠ t → v.sched.toggles.get z = s.sched.toggles.get z)
      ∧ (o ≠ .accepted → v.sched.toggles = s.sched.toggles)
      ∧ (o = .sent → finishes .sent)
      ∧ (o ≠ .accepted → o ≠ .sent →
        (x.endMark = .cancelled → finishes .cancelled) ∧ (x.endMark = .expired → finishes .expired)
        ∧ (x.endMark = .none →
          (o = .lost → stays .waiting false)
          ∧ (o = .busy → x.copy.retries < x.failures + 1 → finishes .busyExhausted)
          ∧ (o = .noReply → x.copy.retries < x.failures + 1 → finishes .noReplyExhausted)
          ∧ (o = .shape → x.copy.retries < x.failures + 1 → finishes .shapeExhausted)
          ∧ (o = .busy → x.failures + 1 ≤ x.copy.retries →
              stays (.resting (s.sched.backoff.get t) s.session.deviceTime) false)
          ∧ (o = .noReply ∨ o = .shape → x.failures + 1 ≤ x.copy.retries → stays .waiting true))))
    ∧ (s.session.state = .stopping → s.sched.stopDone.get t = false → s.findEntry t i = some x →
      (∀ y ∈ s.list t, y.index ≠ i → y.condition ≠ .inFlight) →
      v.list t = [] ∧ v.sched.stopDone.get t = true ∧ (∀ r ∈ v.sched.repeats, r.copy.trunk ≠ t)
      ∧ (HeldMapKept s →
        let first := fun code : ResultCode =>
          s.handOn { x with last := some o, losses := losses } code s.session.deviceTime
        let others := (s.list t).filter (fun y => y.index != i)
        let stopsWith := fun (u : State) (l : List Entry) =>
          ∃ left : List RepeatEntry, LeftOver u.sched.repeats t l left
            ∧ v.results.queue = u.results.queue ++ trunkEnds u.sched.repeats l left .stopped s.session.deviceTime
        let recorded := (s.list t).map (fun y => if y.index = i then { x with last := some o, losses := losses } else y)
        (o = .accepted → stopsWith (first .accepted) others) ∧ (o = .sent → stopsWith (first .sent) others)
        ∧ (o ≠ .accepted → o ≠ .sent →
          (x.endMark = .cancelled → stopsWith (first .cancelled) others)
          ∧ (x.endMark = .expired → stopsWith (first .expired) others)
          ∧ (x.endMark = .none →
            (o = .lost → stopsWith s recorded)
            ∧ (o = .busy ∨ o = .noReply ∨ o = .shape → x.failures + 1 ≤ x.copy.retries → stopsWith s recorded)
            ∧ (o = .busy → x.copy.retries < x.failures + 1 → stopsWith (first .busyExhausted) others)
            ∧ (o = .noReply → x.copy.retries < x.failures + 1 → stopsWith (first .noReplyExhausted) others)
            ∧ (o = .shape → x.copy.retries < x.failures + 1 → stopsWith (first .shapeExhausted) others)))))

/-! ### The stuck line, timing and OFF -/

/-- The stuck event at 40U low, the recovery at 20U high, each with the TRUNK cause; and pending timing taken in IDLE
or HOLDING with the line high and no outcome to wait for (log 36), in FAULTED too, where the armed entry keeps its
values (log 34). A row sent before its moment changes nothing (log 1). -/
def Obligations.StuckAndTiming : Prop :=
  ∀ (s : State) (t : Trunk),
    let e := s.engine t
    let u := e.timing.unit
    (e.state = .idle ∨ e.state = .holding → e.level = .low →
      (400 * u ≤ e.lowTime →
        exec (.stuck t) s = .next
          { (s.setEngine t
              { e with state := .stuck, recoveryTime := 0, holdClock := 0, candidate := false, pulse := .quiet }).tally t
                (fun c => { c with stuck := c.stuck + 1 }) with
            regs := { s.regs with intCause := s.regs.intCause ||| 4#6 } })
      ∧ (e.lowTime < 400 * u → exec (.stuck t) s = .next s))
    ∧ (e.state = .stuck → e.level = .high →
      (200 * u ≤ e.recoveryTime →
        exec (.stuckRecovery t) s = .next
          { s.setEngine t
              { e with
                state := if e.armed.isSome then .holding else .idle
                holdClock := 0, recoveryTime := 0 } with
            regs := { s.regs with intCause := s.regs.intCause ||| 4#6 } })
      ∧ (e.recoveryTime < 200 * u → exec (.stuckRecovery t) s = .next s))
    ∧ { e with state := .stuck }.statusCode = 3
    ∧ (∀ v : Timing, e.pendingTiming = some v → e.state = .idle ∨ e.state = .holding → e.level = .high →
      e.attempt = none →
      (s.session.state ≠ .faulted →
        exec (.timingTakesEffect t) s = .next
          (s.setEngine t
            { e with
              timing := v, pendingTiming := none, holdClock := 0
              armed := e.armed.map (fun m => { m with holdUnits := v.hold + 2 * m.cls.code + 4 * m.retry.toNat }) }))
      ∧ (s.session.state = .faulted →
        exec (.timingTakesEffect t) s = .next
          (s.setEngine t { e with timing := v, pendingTiming := none, holdClock := 0 })))
    ∧ (e.pendingTiming = none ∨ (e.state ≠ .idle ∧ e.state ≠ .holding) ∨ e.level = .low ∨ e.attempt ≠ none →
        exec (.timingTakesEffect t) s = .next s)

/-- A trunk whose RELOAD to OFF has waited enters OFF with no frame in progress: the engine takes the values of OFF, and
its pending timing. The trunk-off processing follows: every entry of its list ends TRUNK_OFF in list order, an ordinary
one with its own DONE, a round with the final DONE of its repetition; then every repetition of the trunk that is left
ends TRUNK_OFF with its last round figures, in ascending index. In STANDBY texts of the manual disagree, and a free value
says which holds (log 33): either nothing finishes there and the processing is kept back, or it is made at once, and what
it hands on waits in the queue. Frozen in FAULTED there is no processing: the engine alone goes OFF. That the trunk has
had the processing is a field of the model (log 35), TRUNK_OFF waits for the end of an attempt (log 15), and a row sent
before its moment changes nothing (log 1). -/
def Obligations.TrunkOff : Prop :=
  ∀ (s : State) (t : Trunk),
    let e := s.engine t
    (e.pendingOff = true → e.state = .idle ∨ e.state = .holding ∨ e.state = .stuck → e.attempt = none →
      ∃ v : State, exec (.trunkOff t) s = .next v
        ∧ v.engine t =
            { e with
              mode := .off, state := .off, pendingOff := false, timing := e.pendingTiming.getD e.timing
              pendingTiming := none, holdClock := 0, lowTime := 0, recoveryTime := 0, armed := none, attempt := none
              buffer := { own := false, leadTaken := false, count := 0, octets := [], bits := [], length := none, sum := 0#8 }
              answer := .silent, pulse := .quiet, candidate := false, window := none, reply := .unset }
        ∧ (v.engine t).drives = false
        ∧ OtherTrunksSame s v t ∧ SameElsewhereAndStandby s v ∧ v.director = s.director ∧ v.regs = s.regs
        ∧ (let keptBack := v.sched = { s.sched with offOwed := s.sched.offOwed.set t true } ∧ v.results = s.results
           let processed := v.list t = [] ∧ (∀ r ∈ v.sched.repeats, r.copy.trunk ≠ t)
             ∧ (DistinctOn s t →
                ∃ left : List RepeatEntry,
                  LeftOver s.sched.repeats t (s.list t) left
                  ∧ v.sched =
                      { s.sched with
                        lists := s.sched.lists.set t []
                        repeats := tableAfter s.sched.repeats t (s.list t)
                        offDone := s.sched.offDone.set t true }
                  ∧ v.results =
                      { s.results with
                        queue := s.results.queue
                          ++ trunkEnds s.sched.repeats (s.list t) left .trunkOff s.session.deviceTime })
           (s.schedulerLive = false → v.sched = s.sched ∧ v.results = s.results)
           ∧ (s.schedulerLive = true → s.session.state ≠ .standby → processed)
           ∧ (s.session.state = .standby →
               (Config.trunkOffWaits = true ∧ keptBack) ∨ (Config.trunkOffWaits = false ∧ processed))))
    ∧ (e.pendingOff = false ∨ (e.state ≠ .idle ∧ e.state ≠ .holding ∧ e.state ≠ .stuck) ∨ e.attempt ≠ none →
        exec (.trunkOff t) s = .next s)

/-! ### Rests, expiries, due times and rounds -/

/-- The end of a rest, and an expiry: marked in STANDBY, where an armed entry stays armed (log 31), an end mark in flight,
else the entry finishes; a finished round goes to the repeat table, whose part in it DueTimesAndRounds states. What a
cancel does that the sweeper passes: of a pending entry that is not in flight, the entry finishes CANCELLED with its
figures, a round with the final DONE of its repetition; in flight, the end mark is set unless one stands, and of a round
also the end request; a repetition between rounds or due ends with its last round figures; an entry of the receive list
is rejected; any other index is left. A row sent before its moment changes nothing (log 1). -/
def Obligations.RestAndExpiry : Prop :=
  (∀ (s : State) (i : Nat) (t : Trunk) (x : Entry),
    s.schedulerLive = true → s.trunkOf i = some t → s.findEntry t i = some x →
    (∀ ms began, x.condition = .resting ms began →
      (ms ≤ (s.session.deviceTime - began).toNat →
        ∃ v, exec (.restEnd i) s = .next v
          ∧ ((s.engine t).takesArming = true → Selected v t) ∧ OtherTrunksSame s v t ∧ SameOutsideTrunks s v
          ∧ (v.list t).map Entry.index = (s.list t).map Entry.index
          ∧ ∃ y ∈ v.list t, y.index = i ∧ (y.condition = .waiting ∨ y.condition = .armed) ∧ y.copy = x.copy
              ∧ y.retry = x.retry ∧ y.failures = x.failures ∧ y.attempts = x.attempts ∧ y.endMark = x.endMark)
      ∧ ((s.session.deviceTime - began).toNat < ms → exec (.restEnd i) s = .next s))
    ∧ (∀ ms, x.copy.expiry = some ms → x.endMark = .none →
      (ms ≤ (s.session.deviceTime - x.joined).toNat →
        (s.session.state = .standby → exec (.expiry i) s = .next
            (s.setList t ((s.list t).map (fun y =>
              if y.index = i then { y with endMark := .expired, stamp := some s.session.deviceTime } else y))))
        ∧ (s.session.state ≠ .standby → x.condition = .inFlight →
          exec (.expiry i) s = .next
            (s.setList t ((s.list t).map (fun y => if y.index = i then { y with endMark := .expired } else y))))
        ∧ (s.session.state ≠ .standby → x.condition ≠ .inFlight →
          ∃ v, exec (.expiry i) s = .next v
            ∧ (v.list t).map Entry.index = ((s.list t).map Entry.index).filter (fun j => j != i)
            ∧ ((s.engine t).takesArming = true → Selected v t) ∧ OtherTrunksSame s v t
            ∧ SameElsewhereAndStandby s v ∧ v.regs = s.regs ∧ v.director = s.director
            ∧ (x.round = true →
                let ended := s.roundEnded i .expired { last := x.last, attempts := x.attempts, losses := x.losses }
                  s.session.deviceTime
                v.results = ended.results ∧ v.sched.repeats = ended.sched.repeats)
            ∧ (x.round = false →
                v.results =
                  { s.results with
                    queue := s.results.queue
                      ++ [.done i
                          { outcome := .expired, last := x.last, attempts := x.attempts, losses := x.losses
                            stamp := s.session.deviceTime, repeats := 0, overruns := 0 }] })))
      ∧ ((s.session.deviceTime - x.joined).toNat < ms → exec (.expiry i) s = .next s)))
  ∧ ∀ (s : State) (i : Nat),
    (∀ (t : Trunk) (x : Entry), s.trunkOf i = some t → s.findEntry t i = some x →
      let v := s.sendCancel i
      let marked := s.setList t ((s.list t).map (fun y => if y.index = i then { y with endMark := .cancelled } else y))
      let requested := fun u : State =>
        { u with
          sched :=
            { u.sched with
              repeats := u.sched.repeats.map (fun r => if r.index = i then { r with endRequest := true } else r) } }
      (x.condition ≠ .inFlight →
        (v.list t).map Entry.index = ((s.list t).map Entry.index).filter (fun j => j != i)
        ∧ (s.schedulerLive = true → (s.engine t).takesArming = true → Selected v t)
        ∧ OtherTrunksSame s v t ∧ SameElsewhereAndStandby s v ∧ v.regs = s.regs ∧ v.director = s.director
        ∧ v.results =
            { s.results with
              queue := s.results.queue ++ uncountedDone s.sched.repeats .cancelled s.session.deviceTime x }
        ∧ (x.round = false → v.sched.repeats = s.sched.repeats)
        ∧ (x.round = true → v.sched.repeats = s.sched.repeats.filter (fun r => r.index != i)))
      ∧ (x.condition = .inFlight →
        (x.round = false → x.endMark = .none → v = marked) ∧ (x.round = false → x.endMark ≠ .none → v = s)
        ∧ (x.round = true → x.endMark = .none → v = requested marked)
        ∧ (x.round = true → x.endMark ≠ .none → v = requested s)))
    ∧ (s.trunkOf i = none →
      (∀ r, s.sched.repeats.find? (fun r => r.index == i) = some r →
        s.sendCancel i =
          { s with
            sched := { s.sched with repeats := s.sched.repeats.filter (fun x => x.index != i) }
            results := { s.results with queue := s.results.queue ++ [repeatDone r .cancelled s.session.deviceTime] } })
      ∧ ((∀ r ∈ s.sched.repeats, r.index ≠ i) → s.sendCancel i = s))
    ∧ ((∃ o ∈ s.director.receiveList, o.index = i) →
      s.receiveCancel i =
        { s with
          director := { s.director with receiveList := s.director.receiveList.filter (fun o => o.index != i) }
          results := { s.results with queue := s.results.queue ++ [.rejected i .cancelled] } })
    ∧ ((∀ o ∈ s.director.receiveList, o.index ≠ i) → s.receiveCancel i = s)

/-- A due time moves the next due time one period on and, by the session state and the round state, makes the entry due,
counts an overrun, or does nothing else; an entry that falls due seeks a free place of its list at once. A round joins a
free place of its trunk's list: of the due entries the one that has been due longest, the lower index among equals. The
join has a row of its own (log 16); that a trunk has had its trunk-off processing is a field of the model (log 35). The
end of a round: a round outcome is counted, its figures stay, and a round result is handed on, in the place of one that
waits (R140), but for one in hand at the port (log 20), or the repetition ends CANCELLED or STOPPED with that round's
figures (log 22); any other outcome ends the repetition uncounted. -/
def Obligations.DueTimesAndRounds : Prop :=
  (∀ (s : State) (i : Nat) (r : RepeatEntry), s.findRepeat i = some r →
    (s.session.deviceTime - r.nextDue).toNat < 2147483648 →
    let replaced := fun x : RepeatEntry => s.setRepeats (s.sched.repeats.map (fun y => if y.index = i then x else y))
    let later := { r with nextDue := r.nextDue + BitVec.ofNat 32 r.period }
    let skipped := { later with overruns := min 65535 (r.overruns + 1) }
    ((s.session.state = .running ∨ s.session.state = .paused ∨ s.session.state = .settling) →
      (r.round ≠ .between → exec (.dueTime i) s = .next (replaced skipped))
      ∧ (r.round = .between → 16 ≤ (s.list r.copy.trunk).length →
          exec (.dueTime i) s = .next (replaced { later with round := .due r.nextDue }))
      ∧ (r.round = .between →
          exec (.dueTime i) s = exec (.roundJoin r.copy.trunk) (replaced { later with round := .due r.nextDue }))
      ∧ (r.round = .between → s.placesTaken r.copy.trunk < 16 → s.sched.offDone.get r.copy.trunk = false →
          (∀ x ∈ s.sched.repeats, x.index ≠ i → x.copy.trunk = r.copy.trunk → ∀ m, x.round ≠ .due m) →
          ∃ v : State, exec (.dueTime i) s = .next v
            ∧ v.sched.repeats = (replaced { later with round := .inRound }).sched.repeats
            ∧ (v.list r.copy.trunk).length = (s.list r.copy.trunk).length + 1
            ∧ ∃ y ∈ v.list r.copy.trunk, y.index = i ∧ y.copy = r.copy ∧ y.round = true ∧ y.seq = s.sched.seq
                ∧ y.joined = s.session.deviceTime))
    ∧ (s.session.state = .standby → exec (.dueTime i) s = .next (replaced skipped))
    ∧ (s.session.state = .stopping → exec (.dueTime i) s = .next (replaced later)))
  ∧ (∀ (s : State) (t : Trunk) (r : RepeatEntry) (since : Word),
    s.session.state = .running ∨ s.session.state = .paused ∨ s.session.state = .settling ∨ s.session.state = .standby →
    s.sched.offDone.get t = false → s.placesTaken t < 16 → r ∈ s.sched.repeats → r.round = .due since → r.copy.trunk = t →
    (∀ x ∈ s.sched.repeats, ∀ m, x.round = .due m → x.copy.trunk = t → x ≠ r →
      (s.session.deviceTime - m).toNat < (s.session.deviceTime - since).toNat
      ∨ ((s.session.deviceTime - m).toNat = (s.session.deviceTime - since).toNat ∧ r.index < x.index)) →
    ∃ v : State, exec (.roundJoin t) s = .next v
      ∧ v.sched.repeats = s.sched.repeats.map (fun x => if x.index = r.index then { x with round := .inRound } else x)
      ∧ v.sched.seq = s.sched.seq + 1
      ∧ (v.list t).length = (s.list t).length + 1
      ∧ (∃ y ∈ v.list t, y.index = r.index ∧ y.copy = r.copy ∧ y.round = true ∧ y.seq = s.sched.seq ∧ y.attempts = 0
          ∧ y.losses = 0 ∧ y.failures = 0 ∧ y.last = none ∧ y.retry = false ∧ y.joined = s.session.deviceTime
          ∧ y.endMark = .none ∧ (y.condition = .waiting ∨ y.condition = .armed))
      ∧ ((s.engine t).takesArming = true → Selected v t)
      ∧ OtherTrunksSame s v t ∧ SameOutsideTrunks s v)
  ∧ ∀ (s : State) (i : Nat) (r : RepeatEntry) (code : ResultCode) (g : Figures) (stamp : Word),
    s.sched.repeats.find? (fun x => x.index == i) = some r →
    let v := s.roundEnded i code g stamp
    let isRoundOutcome := code = .accepted ∨ code = .sent ∨ code = .busyExhausted ∨ code = .noReplyExhausted
      ∨ code = .shapeExhausted ∨ code = .expired
    let counted :=
      { r with
        count := min 65535 (r.count + 1), last := g.last, attempts := g.attempts, losses := g.losses, round := .between }
    let result : Work := .round i
      { outcome := code, last := g.last, attempts := g.attempts, losses := g.losses, stamp := stamp
        repeats := counted.count, overruns := r.overruns }
    let becomes := fun (repeats : List RepeatEntry) (queue : List Work) =>
      v = { s with sched := { s.sched with repeats := repeats }, results := { s.results with queue := queue } }
    let goesOn := becomes (s.sched.repeats.map (fun x => if x.index = i then counted else x))
    let noRound := fun l : List Work => ∀ old, Work.round i old ∉ l
    let ends := fun (outcome : ResultCode) (last : Option AttemptOutcome) (count : Nat) (moment : Word) =>
      becomes (s.sched.repeats.filter (fun x => x.index != i))
        (s.results.queue
          ++ [.done i
              { outcome := outcome, last := last, attempts := g.attempts, losses := g.losses
                stamp := moment, repeats := count, overruns := r.overruns }])
    (isRoundOutcome → r.endRequest = false → s.session.state ≠ .stopping →
      (noRound s.results.queue → goesOn (s.results.queue ++ [result]))
      ∧ (∀ before old after, s.results.queue = before ++ .round i old :: after → noRound before →
          (before ≠ [] ∨ ¬ FrontInHand s → goesOn (before ++ result :: after))
          ∧ (before = [] → FrontInHand s → noRound after → goesOn (.round i old :: after ++ [result])))
      ∧ (∀ front before old after, s.results.queue = .round i front :: before ++ .round i old :: after →
          FrontInHand s → noRound before → goesOn (.round i front :: before ++ result :: after)))
    ∧ (isRoundOutcome → r.endRequest = true → ends .cancelled g.last counted.count s.session.deviceTime)
    ∧ (isRoundOutcome → r.endRequest = false → s.session.state = .stopping →
      ends .stopped g.last counted.count s.session.deviceTime)
    ∧ (code = .cancelled ∨ code = .trunkOff ∨ code = .stopped →
      ends code (if g.attempts = 0 then r.last else g.last) r.count stamp)

/-! ### Slots -/

/-- A slot assignment gives a frame the first entry of the receive list that serves its trunk, oldest frame first, past
no older frame of the trunk that lacks a slot; nothing else changes. What the newest frame of a queue gets, by what the
older ones leave, gives every assignment step by step. -/
def Obligations.SlotAssignment : Prop :=
  ∀ (q : List QueuedFrame) (l : List Offered),
    let r : List QueuedFrame × List Offered := assignFrom [] q l
    let slotless := fun x : QueuedFrame => { x with slot := none }
    r.1.map slotless = q.map slotless
    ∧ r.2.Sublist l
    ∧ (∀ (k : Nat) (x y : QueuedFrame), q[k]? = some x → r.1[k]? = some y →
        (x.slot ≠ none → y.slot = x.slot)
        ∧ (x.slot = none → ∀ i, y.slot = some i → ∃ o ∈ l, o.index = i ∧ o.mask.getLsbD y.trunk.val = true))
    ∧ (SlotsInOrder q → SlotsInOrder r.1
        ∧ ∀ (older newer : List QueuedFrame) (y : QueuedFrame), r.1 = older ++ y :: newer → y.slot = none →
            (∀ z ∈ older, z.trunk = y.trunk → z.slot ≠ none) → ∀ o ∈ r.2, o.mask.getLsbD y.trunk.val = false)
    ∧ assignFrom [] [] l = ([], l)
    ∧ (∀ x : QueuedFrame,
        let next : List QueuedFrame × List Offered := assignFrom [] (q ++ [x]) l
        let barred := ∃ z ∈ r.1, z.trunk = x.trunk ∧ z.slot = none
        (x.slot ≠ none ∨ barred → next = (r.1 ++ [x], r.2))
        ∧ (x.slot = none → ¬ barred → (∀ o ∈ r.2, o.mask.getLsbD x.trunk.val = false) → next = (r.1 ++ [x], r.2))
        ∧ (∀ (o : Offered) (before after : List Offered), x.slot = none → ¬ barred →
            r.2 = before ++ o :: after → o.mask.getLsbD x.trunk.val = true →
            (∀ z ∈ before, z.mask.getLsbD x.trunk.val = false) →
            next = (r.1 ++ [{ x with slot := some o.index }], before ++ after)))

/-! ### Invariants that every step keeps -/

/-- System memory keeps its canonical form, which is the model's own (log 8): the addresses rise, and no entry equals
what an unwritten byte reads as. -/
def Obligations.StepKeepsMemoryCanonical : Prop :=
  ∀ s : State, MemoryCanonical s → OnNext (step s) MemoryCanonical

/-- No pending list holds more than 16 entries, the repeat table more than 8, the receive list more than 32, or the
delivery queue more than 6 frames, a reserved place counted as taken. And the held map is exact: the bit of an index is
set exactly while one collection holds the index, up to the state write of its completion. -/
def Obligations.StepKeepsPlaces : Prop :=
  (∀ s : State, WithinPlaces s → OnNext (step s) WithinPlaces)
  ∧ ∀ s : State, HeldMapKept s → OnNext (step s) HeldMapKept

/-- No frame holds a slot while an older frame from the same trunk lacks one. -/
def Obligations.StepKeepsSlotsInOrder : Prop :=
  ∀ s : State, SlotsInOrder s.director.queue → OnNext (step s) (fun t => SlotsInOrder t.director.queue)

/-- WAKE is asserted only in STANDBY, and the port holds no unit in STANDBY. And the count relation: with no completion
unit granted and unfinished, the written count, a field of the result writer that takes each number as its count write
completes, is the number last given; with one, it lags by one until the count write, which the unit's state write
precedes. -/
def Obligations.StepKeepsWakeInStandby : Prop :=
  (∀ s : State, WakeOnlyInStandby s → OnNext (step s) WakeOnlyInStandby)
  ∧ ∀ s : State, CountsAgree s → OnNext (step s) CountsAgree

/-- Every pending list stands in class order. And an engine is OFF in mode and in state together, with pending OFF clear
there. -/
def Obligations.StepKeepsClassOrder : Prop :=
  (∀ s : State, ListsInClassOrder s → OnNext (step s) ListsInClassOrder)
  ∧ ∀ s : State, (∀ o : Trunk, OffAgrees (s.engine o)) → OnNext (step s) (fun t => ∀ o : Trunk, OffAgrees (t.engine o))
end

