-- ==== Sys2Proof/Laws/State.lean ====
section
/-! SUPPORT. What each update of the state leaves and sets: one lemma for each field and each update, all true by
definition, so that no later proof unfolds a record update. -/

namespace Sys2Proof.Laws

open Sys2Proof.Machine

/-! ### `State.setPending` -/

@[simp] theorem setPending_pending (s : State) (x : List Instr) : (s.setPending x).pending = x := rfl
@[simp] theorem setPending_outside (s : State) (x : List Instr) : (s.setPending x).outside = s.outside := rfl
@[simp] theorem setPending_memory (s : State) (x : List Instr) : (s.setPending x).memory = s.memory := rfl
@[simp] theorem setPending_regs (s : State) (x : List Instr) : (s.setPending x).regs = s.regs := rfl
@[simp] theorem setPending_session (s : State) (x : List Instr) : (s.setPending x).session = s.session := rfl
@[simp] theorem setPending_port (s : State) (x : List Instr) : (s.setPending x).port = s.port := rfl
@[simp] theorem setPending_sweeper (s : State) (x : List Instr) : (s.setPending x).sweeper = s.sweeper := rfl
@[simp] theorem setPending_sched (s : State) (x : List Instr) : (s.setPending x).sched = s.sched := rfl
@[simp] theorem setPending_engines (s : State) (x : List Instr) : (s.setPending x).engines = s.engines := rfl
@[simp] theorem setPending_director (s : State) (x : List Instr) : (s.setPending x).director = s.director := rfl
@[simp] theorem setPending_results (s : State) (x : List Instr) : (s.setPending x).results = s.results := rfl
@[simp] theorem setPending_header (s : State) (x : List Instr) : (s.setPending x).header = s.header := rfl
@[simp] theorem setPending_standby (s : State) (x : List Instr) : (s.setPending x).standby = s.standby := rfl
@[simp] theorem setPending_free (s : State) (x : List Instr) : (s.setPending x).free = s.free := rfl

/-! ### `State.setOutside` -/

@[simp] theorem setOutside_pending (s : State) (x : List (Nat × Outside)) : (s.setOutside x).pending = s.pending := rfl
@[simp] theorem setOutside_outside (s : State) (x : List (Nat × Outside)) : (s.setOutside x).outside = x := rfl
@[simp] theorem setOutside_memory (s : State) (x : List (Nat × Outside)) : (s.setOutside x).memory = s.memory := rfl
@[simp] theorem setOutside_regs (s : State) (x : List (Nat × Outside)) : (s.setOutside x).regs = s.regs := rfl
@[simp] theorem setOutside_session (s : State) (x : List (Nat × Outside)) : (s.setOutside x).session = s.session := rfl
@[simp] theorem setOutside_port (s : State) (x : List (Nat × Outside)) : (s.setOutside x).port = s.port := rfl
@[simp] theorem setOutside_sweeper (s : State) (x : List (Nat × Outside)) : (s.setOutside x).sweeper = s.sweeper := rfl
@[simp] theorem setOutside_sched (s : State) (x : List (Nat × Outside)) : (s.setOutside x).sched = s.sched := rfl
@[simp] theorem setOutside_engines (s : State) (x : List (Nat × Outside)) : (s.setOutside x).engines = s.engines := rfl
@[simp] theorem setOutside_director (s : State) (x : List (Nat × Outside)) : (s.setOutside x).director = s.director := rfl
@[simp] theorem setOutside_results (s : State) (x : List (Nat × Outside)) : (s.setOutside x).results = s.results := rfl
@[simp] theorem setOutside_header (s : State) (x : List (Nat × Outside)) : (s.setOutside x).header = s.header := rfl
@[simp] theorem setOutside_standby (s : State) (x : List (Nat × Outside)) : (s.setOutside x).standby = s.standby := rfl
@[simp] theorem setOutside_free (s : State) (x : List (Nat × Outside)) : (s.setOutside x).free = s.free := rfl

/-! ### `State.setMemory` -/

@[simp] theorem setMemory_pending (s : State) (x : List Host.Cell) : (s.setMemory x).pending = s.pending := rfl
@[simp] theorem setMemory_outside (s : State) (x : List Host.Cell) : (s.setMemory x).outside = s.outside := rfl
@[simp] theorem setMemory_memory (s : State) (x : List Host.Cell) : (s.setMemory x).memory = x := rfl
@[simp] theorem setMemory_regs (s : State) (x : List Host.Cell) : (s.setMemory x).regs = s.regs := rfl
@[simp] theorem setMemory_session (s : State) (x : List Host.Cell) : (s.setMemory x).session = s.session := rfl
@[simp] theorem setMemory_port (s : State) (x : List Host.Cell) : (s.setMemory x).port = s.port := rfl
@[simp] theorem setMemory_sweeper (s : State) (x : List Host.Cell) : (s.setMemory x).sweeper = s.sweeper := rfl
@[simp] theorem setMemory_sched (s : State) (x : List Host.Cell) : (s.setMemory x).sched = s.sched := rfl
@[simp] theorem setMemory_engines (s : State) (x : List Host.Cell) : (s.setMemory x).engines = s.engines := rfl
@[simp] theorem setMemory_director (s : State) (x : List Host.Cell) : (s.setMemory x).director = s.director := rfl
@[simp] theorem setMemory_results (s : State) (x : List Host.Cell) : (s.setMemory x).results = s.results := rfl
@[simp] theorem setMemory_header (s : State) (x : List Host.Cell) : (s.setMemory x).header = s.header := rfl
@[simp] theorem setMemory_standby (s : State) (x : List Host.Cell) : (s.setMemory x).standby = s.standby := rfl
@[simp] theorem setMemory_free (s : State) (x : List Host.Cell) : (s.setMemory x).free = s.free := rfl

/-! ### `State.setRegs` -/

@[simp] theorem setRegs_pending (s : State) (x : Registers) : (s.setRegs x).pending = s.pending := rfl
@[simp] theorem setRegs_outside (s : State) (x : Registers) : (s.setRegs x).outside = s.outside := rfl
@[simp] theorem setRegs_memory (s : State) (x : Registers) : (s.setRegs x).memory = s.memory := rfl
@[simp] theorem setRegs_regs (s : State) (x : Registers) : (s.setRegs x).regs = x := rfl
@[simp] theorem setRegs_session (s : State) (x : Registers) : (s.setRegs x).session = s.session := rfl
@[simp] theorem setRegs_port (s : State) (x : Registers) : (s.setRegs x).port = s.port := rfl
@[simp] theorem setRegs_sweeper (s : State) (x : Registers) : (s.setRegs x).sweeper = s.sweeper := rfl
@[simp] theorem setRegs_sched (s : State) (x : Registers) : (s.setRegs x).sched = s.sched := rfl
@[simp] theorem setRegs_engines (s : State) (x : Registers) : (s.setRegs x).engines = s.engines := rfl
@[simp] theorem setRegs_director (s : State) (x : Registers) : (s.setRegs x).director = s.director := rfl
@[simp] theorem setRegs_results (s : State) (x : Registers) : (s.setRegs x).results = s.results := rfl
@[simp] theorem setRegs_header (s : State) (x : Registers) : (s.setRegs x).header = s.header := rfl
@[simp] theorem setRegs_standby (s : State) (x : Registers) : (s.setRegs x).standby = s.standby := rfl
@[simp] theorem setRegs_free (s : State) (x : Registers) : (s.setRegs x).free = s.free := rfl

/-! ### `State.setSession` -/

@[simp] theorem setSession_pending (s : State) (x : Session) : (s.setSession x).pending = s.pending := rfl
@[simp] theorem setSession_outside (s : State) (x : Session) : (s.setSession x).outside = s.outside := rfl
@[simp] theorem setSession_memory (s : State) (x : Session) : (s.setSession x).memory = s.memory := rfl
@[simp] theorem setSession_regs (s : State) (x : Session) : (s.setSession x).regs = s.regs := rfl
@[simp] theorem setSession_session (s : State) (x : Session) : (s.setSession x).session = x := rfl
@[simp] theorem setSession_port (s : State) (x : Session) : (s.setSession x).port = s.port := rfl
@[simp] theorem setSession_sweeper (s : State) (x : Session) : (s.setSession x).sweeper = s.sweeper := rfl
@[simp] theorem setSession_sched (s : State) (x : Session) : (s.setSession x).sched = s.sched := rfl
@[simp] theorem setSession_engines (s : State) (x : Session) : (s.setSession x).engines = s.engines := rfl
@[simp] theorem setSession_director (s : State) (x : Session) : (s.setSession x).director = s.director := rfl
@[simp] theorem setSession_results (s : State) (x : Session) : (s.setSession x).results = s.results := rfl
@[simp] theorem setSession_header (s : State) (x : Session) : (s.setSession x).header = s.header := rfl
@[simp] theorem setSession_standby (s : State) (x : Session) : (s.setSession x).standby = s.standby := rfl
@[simp] theorem setSession_free (s : State) (x : Session) : (s.setSession x).free = s.free := rfl

/-! ### `State.setPort` -/

@[simp] theorem setPort_pending (s : State) (x : Port) : (s.setPort x).pending = s.pending := rfl
@[simp] theorem setPort_outside (s : State) (x : Port) : (s.setPort x).outside = s.outside := rfl
@[simp] theorem setPort_memory (s : State) (x : Port) : (s.setPort x).memory = s.memory := rfl
@[simp] theorem setPort_regs (s : State) (x : Port) : (s.setPort x).regs = s.regs := rfl
@[simp] theorem setPort_session (s : State) (x : Port) : (s.setPort x).session = s.session := rfl
@[simp] theorem setPort_port (s : State) (x : Port) : (s.setPort x).port = x := rfl
@[simp] theorem setPort_sweeper (s : State) (x : Port) : (s.setPort x).sweeper = s.sweeper := rfl
@[simp] theorem setPort_sched (s : State) (x : Port) : (s.setPort x).sched = s.sched := rfl
@[simp] theorem setPort_engines (s : State) (x : Port) : (s.setPort x).engines = s.engines := rfl
@[simp] theorem setPort_director (s : State) (x : Port) : (s.setPort x).director = s.director := rfl
@[simp] theorem setPort_results (s : State) (x : Port) : (s.setPort x).results = s.results := rfl
@[simp] theorem setPort_header (s : State) (x : Port) : (s.setPort x).header = s.header := rfl
@[simp] theorem setPort_standby (s : State) (x : Port) : (s.setPort x).standby = s.standby := rfl
@[simp] theorem setPort_free (s : State) (x : Port) : (s.setPort x).free = s.free := rfl

/-! ### `State.setSweeper` -/

@[simp] theorem setSweeper_pending (s : State) (x : Sweeper) : (s.setSweeper x).pending = s.pending := rfl
@[simp] theorem setSweeper_outside (s : State) (x : Sweeper) : (s.setSweeper x).outside = s.outside := rfl
@[simp] theorem setSweeper_memory (s : State) (x : Sweeper) : (s.setSweeper x).memory = s.memory := rfl
@[simp] theorem setSweeper_regs (s : State) (x : Sweeper) : (s.setSweeper x).regs = s.regs := rfl
@[simp] theorem setSweeper_session (s : State) (x : Sweeper) : (s.setSweeper x).session = s.session := rfl
@[simp] theorem setSweeper_port (s : State) (x : Sweeper) : (s.setSweeper x).port = s.port := rfl
@[simp] theorem setSweeper_sweeper (s : State) (x : Sweeper) : (s.setSweeper x).sweeper = x := rfl
@[simp] theorem setSweeper_sched (s : State) (x : Sweeper) : (s.setSweeper x).sched = s.sched := rfl
@[simp] theorem setSweeper_engines (s : State) (x : Sweeper) : (s.setSweeper x).engines = s.engines := rfl
@[simp] theorem setSweeper_director (s : State) (x : Sweeper) : (s.setSweeper x).director = s.director := rfl
@[simp] theorem setSweeper_results (s : State) (x : Sweeper) : (s.setSweeper x).results = s.results := rfl
@[simp] theorem setSweeper_header (s : State) (x : Sweeper) : (s.setSweeper x).header = s.header := rfl
@[simp] theorem setSweeper_standby (s : State) (x : Sweeper) : (s.setSweeper x).standby = s.standby := rfl
@[simp] theorem setSweeper_free (s : State) (x : Sweeper) : (s.setSweeper x).free = s.free := rfl

/-! ### `State.setSched` -/

@[simp] theorem setSched_pending (s : State) (x : Scheduler) : (s.setSched x).pending = s.pending := rfl
@[simp] theorem setSched_outside (s : State) (x : Scheduler) : (s.setSched x).outside = s.outside := rfl
@[simp] theorem setSched_memory (s : State) (x : Scheduler) : (s.setSched x).memory = s.memory := rfl
@[simp] theorem setSched_regs (s : State) (x : Scheduler) : (s.setSched x).regs = s.regs := rfl
@[simp] theorem setSched_session (s : State) (x : Scheduler) : (s.setSched x).session = s.session := rfl
@[simp] theorem setSched_port (s : State) (x : Scheduler) : (s.setSched x).port = s.port := rfl
@[simp] theorem setSched_sweeper (s : State) (x : Scheduler) : (s.setSched x).sweeper = s.sweeper := rfl
@[simp] theorem setSched_sched (s : State) (x : Scheduler) : (s.setSched x).sched = x := rfl
@[simp] theorem setSched_engines (s : State) (x : Scheduler) : (s.setSched x).engines = s.engines := rfl
@[simp] theorem setSched_director (s : State) (x : Scheduler) : (s.setSched x).director = s.director := rfl
@[simp] theorem setSched_results (s : State) (x : Scheduler) : (s.setSched x).results = s.results := rfl
@[simp] theorem setSched_header (s : State) (x : Scheduler) : (s.setSched x).header = s.header := rfl
@[simp] theorem setSched_standby (s : State) (x : Scheduler) : (s.setSched x).standby = s.standby := rfl
@[simp] theorem setSched_free (s : State) (x : Scheduler) : (s.setSched x).free = s.free := rfl

/-! ### `State.setEngines` -/

@[simp] theorem setEngines_pending (s : State) (x : Four Engine) : (s.setEngines x).pending = s.pending := rfl
@[simp] theorem setEngines_outside (s : State) (x : Four Engine) : (s.setEngines x).outside = s.outside := rfl
@[simp] theorem setEngines_memory (s : State) (x : Four Engine) : (s.setEngines x).memory = s.memory := rfl
@[simp] theorem setEngines_regs (s : State) (x : Four Engine) : (s.setEngines x).regs = s.regs := rfl
@[simp] theorem setEngines_session (s : State) (x : Four Engine) : (s.setEngines x).session = s.session := rfl
@[simp] theorem setEngines_port (s : State) (x : Four Engine) : (s.setEngines x).port = s.port := rfl
@[simp] theorem setEngines_sweeper (s : State) (x : Four Engine) : (s.setEngines x).sweeper = s.sweeper := rfl
@[simp] theorem setEngines_sched (s : State) (x : Four Engine) : (s.setEngines x).sched = s.sched := rfl
@[simp] theorem setEngines_engines (s : State) (x : Four Engine) : (s.setEngines x).engines = x := rfl
@[simp] theorem setEngines_director (s : State) (x : Four Engine) : (s.setEngines x).director = s.director := rfl
@[simp] theorem setEngines_results (s : State) (x : Four Engine) : (s.setEngines x).results = s.results := rfl
@[simp] theorem setEngines_header (s : State) (x : Four Engine) : (s.setEngines x).header = s.header := rfl
@[simp] theorem setEngines_standby (s : State) (x : Four Engine) : (s.setEngines x).standby = s.standby := rfl
@[simp] theorem setEngines_free (s : State) (x : Four Engine) : (s.setEngines x).free = s.free := rfl

/-! ### `State.setDirector` -/

@[simp] theorem setDirector_pending (s : State) (x : Director) : (s.setDirector x).pending = s.pending := rfl
@[simp] theorem setDirector_outside (s : State) (x : Director) : (s.setDirector x).outside = s.outside := rfl
@[simp] theorem setDirector_memory (s : State) (x : Director) : (s.setDirector x).memory = s.memory := rfl
@[simp] theorem setDirector_regs (s : State) (x : Director) : (s.setDirector x).regs = s.regs := rfl
@[simp] theorem setDirector_session (s : State) (x : Director) : (s.setDirector x).session = s.session := rfl
@[simp] theorem setDirector_port (s : State) (x : Director) : (s.setDirector x).port = s.port := rfl
@[simp] theorem setDirector_sweeper (s : State) (x : Director) : (s.setDirector x).sweeper = s.sweeper := rfl
@[simp] theorem setDirector_sched (s : State) (x : Director) : (s.setDirector x).sched = s.sched := rfl
@[simp] theorem setDirector_engines (s : State) (x : Director) : (s.setDirector x).engines = s.engines := rfl
@[simp] theorem setDirector_director (s : State) (x : Director) : (s.setDirector x).director = x := rfl
@[simp] theorem setDirector_results (s : State) (x : Director) : (s.setDirector x).results = s.results := rfl
@[simp] theorem setDirector_header (s : State) (x : Director) : (s.setDirector x).header = s.header := rfl
@[simp] theorem setDirector_standby (s : State) (x : Director) : (s.setDirector x).standby = s.standby := rfl
@[simp] theorem setDirector_free (s : State) (x : Director) : (s.setDirector x).free = s.free := rfl

/-! ### `State.setResults` -/

@[simp] theorem setResults_pending (s : State) (x : ResultWriter) : (s.setResults x).pending = s.pending := rfl
@[simp] theorem setResults_outside (s : State) (x : ResultWriter) : (s.setResults x).outside = s.outside := rfl
@[simp] theorem setResults_memory (s : State) (x : ResultWriter) : (s.setResults x).memory = s.memory := rfl
@[simp] theorem setResults_regs (s : State) (x : ResultWriter) : (s.setResults x).regs = s.regs := rfl
@[simp] theorem setResults_session (s : State) (x : ResultWriter) : (s.setResults x).session = s.session := rfl
@[simp] theorem setResults_port (s : State) (x : ResultWriter) : (s.setResults x).port = s.port := rfl
@[simp] theorem setResults_sweeper (s : State) (x : ResultWriter) : (s.setResults x).sweeper = s.sweeper := rfl
@[simp] theorem setResults_sched (s : State) (x : ResultWriter) : (s.setResults x).sched = s.sched := rfl
@[simp] theorem setResults_engines (s : State) (x : ResultWriter) : (s.setResults x).engines = s.engines := rfl
@[simp] theorem setResults_director (s : State) (x : ResultWriter) : (s.setResults x).director = s.director := rfl
@[simp] theorem setResults_results (s : State) (x : ResultWriter) : (s.setResults x).results = x := rfl
@[simp] theorem setResults_header (s : State) (x : ResultWriter) : (s.setResults x).header = s.header := rfl
@[simp] theorem setResults_standby (s : State) (x : ResultWriter) : (s.setResults x).standby = s.standby := rfl
@[simp] theorem setResults_free (s : State) (x : ResultWriter) : (s.setResults x).free = s.free := rfl

/-! ### `State.setHeader` -/

@[simp] theorem setHeader_pending (s : State) (x : List HeaderUnit) : (s.setHeader x).pending = s.pending := rfl
@[simp] theorem setHeader_outside (s : State) (x : List HeaderUnit) : (s.setHeader x).outside = s.outside := rfl
@[simp] theorem setHeader_memory (s : State) (x : List HeaderUnit) : (s.setHeader x).memory = s.memory := rfl
@[simp] theorem setHeader_regs (s : State) (x : List HeaderUnit) : (s.setHeader x).regs = s.regs := rfl
@[simp] theorem setHeader_session (s : State) (x : List HeaderUnit) : (s.setHeader x).session = s.session := rfl
@[simp] theorem setHeader_port (s : State) (x : List HeaderUnit) : (s.setHeader x).port = s.port := rfl
@[simp] theorem setHeader_sweeper (s : State) (x : List HeaderUnit) : (s.setHeader x).sweeper = s.sweeper := rfl
@[simp] theorem setHeader_sched (s : State) (x : List HeaderUnit) : (s.setHeader x).sched = s.sched := rfl
@[simp] theorem setHeader_engines (s : State) (x : List HeaderUnit) : (s.setHeader x).engines = s.engines := rfl
@[simp] theorem setHeader_director (s : State) (x : List HeaderUnit) : (s.setHeader x).director = s.director := rfl
@[simp] theorem setHeader_results (s : State) (x : List HeaderUnit) : (s.setHeader x).results = s.results := rfl
@[simp] theorem setHeader_header (s : State) (x : List HeaderUnit) : (s.setHeader x).header = x := rfl
@[simp] theorem setHeader_standby (s : State) (x : List HeaderUnit) : (s.setHeader x).standby = s.standby := rfl
@[simp] theorem setHeader_free (s : State) (x : List HeaderUnit) : (s.setHeader x).free = s.free := rfl

/-! ### `State.setStandby` -/

@[simp] theorem setStandby_pending (s : State) (x : Standby) : (s.setStandby x).pending = s.pending := rfl
@[simp] theorem setStandby_outside (s : State) (x : Standby) : (s.setStandby x).outside = s.outside := rfl
@[simp] theorem setStandby_memory (s : State) (x : Standby) : (s.setStandby x).memory = s.memory := rfl
@[simp] theorem setStandby_regs (s : State) (x : Standby) : (s.setStandby x).regs = s.regs := rfl
@[simp] theorem setStandby_session (s : State) (x : Standby) : (s.setStandby x).session = s.session := rfl
@[simp] theorem setStandby_port (s : State) (x : Standby) : (s.setStandby x).port = s.port := rfl
@[simp] theorem setStandby_sweeper (s : State) (x : Standby) : (s.setStandby x).sweeper = s.sweeper := rfl
@[simp] theorem setStandby_sched (s : State) (x : Standby) : (s.setStandby x).sched = s.sched := rfl
@[simp] theorem setStandby_engines (s : State) (x : Standby) : (s.setStandby x).engines = s.engines := rfl
@[simp] theorem setStandby_director (s : State) (x : Standby) : (s.setStandby x).director = s.director := rfl
@[simp] theorem setStandby_results (s : State) (x : Standby) : (s.setStandby x).results = s.results := rfl
@[simp] theorem setStandby_header (s : State) (x : Standby) : (s.setStandby x).header = s.header := rfl
@[simp] theorem setStandby_standby (s : State) (x : Standby) : (s.setStandby x).standby = x := rfl
@[simp] theorem setStandby_free (s : State) (x : Standby) : (s.setStandby x).free = s.free := rfl

/-! ### `State.setFree` -/

@[simp] theorem setFree_pending (s : State) (x : Nat) : (s.setFree x).pending = s.pending := rfl
@[simp] theorem setFree_outside (s : State) (x : Nat) : (s.setFree x).outside = s.outside := rfl
@[simp] theorem setFree_memory (s : State) (x : Nat) : (s.setFree x).memory = s.memory := rfl
@[simp] theorem setFree_regs (s : State) (x : Nat) : (s.setFree x).regs = s.regs := rfl
@[simp] theorem setFree_session (s : State) (x : Nat) : (s.setFree x).session = s.session := rfl
@[simp] theorem setFree_port (s : State) (x : Nat) : (s.setFree x).port = s.port := rfl
@[simp] theorem setFree_sweeper (s : State) (x : Nat) : (s.setFree x).sweeper = s.sweeper := rfl
@[simp] theorem setFree_sched (s : State) (x : Nat) : (s.setFree x).sched = s.sched := rfl
@[simp] theorem setFree_engines (s : State) (x : Nat) : (s.setFree x).engines = s.engines := rfl
@[simp] theorem setFree_director (s : State) (x : Nat) : (s.setFree x).director = s.director := rfl
@[simp] theorem setFree_results (s : State) (x : Nat) : (s.setFree x).results = s.results := rfl
@[simp] theorem setFree_header (s : State) (x : Nat) : (s.setFree x).header = s.header := rfl
@[simp] theorem setFree_standby (s : State) (x : Nat) : (s.setFree x).standby = s.standby := rfl
@[simp] theorem setFree_free (s : State) (x : Nat) : (s.setFree x).free = x := rfl

/-! ### The engine and the list of a trunk -/

@[simp] theorem get_of {α : Type} (f : Trunk → α) (t : Trunk) : (Four.of f).get t = f t := by
  match t with
  | 0 => rfl
  | 1 => rfl
  | 2 => rfl
  | 3 => rfl

@[simp] theorem get_all {α : Type} (x : α) (t : Trunk) : (Four.all x).get t = x := by
  match t with
  | 0 => rfl
  | 1 => rfl
  | 2 => rfl
  | 3 => rfl

@[simp] theorem get_set_same {α : Type} (q : Four α) (t : Trunk) (x : α) : (q.set t x).get t = x := by
  simp [Four.set]

theorem get_set {α : Type} (q : Four α) (t u : Trunk) (x : α) :
    (q.set t x).get u = if u = t then x else q.get u := by
  simp [Four.set]

theorem get_set_other {α : Type} (q : Four α) (t u : Trunk) (x : α) (h : u ≠ t) : (q.set t x).get u = q.get u := by
  simp [Four.set, h]

@[simp] theorem engine_setEngine_same (s : State) (t : Trunk) (e : Engine) : (s.setEngine t e).engine t = e := by
  simp [State.setEngine, State.engine]

theorem engine_setEngine_other (s : State) (t u : Trunk) (e : Engine) (h : u ≠ t) :
    (s.setEngine t e).engine u = s.engine u := by
  simp [State.setEngine, State.engine, get_set, h]

@[simp] theorem list_setList_same (s : State) (t : Trunk) (l : List Entry) : (s.setList t l).list t = l := by
  simp [State.setList, State.list]

theorem list_setList_other (s : State) (t u : Trunk) (l : List Entry) (h : u ≠ t) :
    (s.setList t l).list u = s.list u := by
  simp [State.setList, State.list, get_set, h]

@[simp] theorem setEngine_pending (s : State) (t : Trunk) (e : Engine) : (s.setEngine t e).pending = s.pending := rfl
@[simp] theorem setEngine_outside (s : State) (t : Trunk) (e : Engine) : (s.setEngine t e).outside = s.outside := rfl
@[simp] theorem setEngine_memory (s : State) (t : Trunk) (e : Engine) : (s.setEngine t e).memory = s.memory := rfl
@[simp] theorem setEngine_regs (s : State) (t : Trunk) (e : Engine) : (s.setEngine t e).regs = s.regs := rfl
@[simp] theorem setEngine_session (s : State) (t : Trunk) (e : Engine) : (s.setEngine t e).session = s.session := rfl
@[simp] theorem setEngine_port (s : State) (t : Trunk) (e : Engine) : (s.setEngine t e).port = s.port := rfl
@[simp] theorem setEngine_sweeper (s : State) (t : Trunk) (e : Engine) : (s.setEngine t e).sweeper = s.sweeper := rfl
@[simp] theorem setEngine_sched (s : State) (t : Trunk) (e : Engine) : (s.setEngine t e).sched = s.sched := rfl
@[simp] theorem setEngine_director (s : State) (t : Trunk) (e : Engine) : (s.setEngine t e).director = s.director := rfl
@[simp] theorem setEngine_results (s : State) (t : Trunk) (e : Engine) : (s.setEngine t e).results = s.results := rfl
@[simp] theorem setEngine_header (s : State) (t : Trunk) (e : Engine) : (s.setEngine t e).header = s.header := rfl
@[simp] theorem setEngine_standby (s : State) (t : Trunk) (e : Engine) : (s.setEngine t e).standby = s.standby := rfl
@[simp] theorem setEngine_free (s : State) (t : Trunk) (e : Engine) : (s.setEngine t e).free = s.free := rfl

@[simp] theorem setList_pending (s : State) (t : Trunk) (l : List Entry) : (s.setList t l).pending = s.pending := rfl
@[simp] theorem setList_outside (s : State) (t : Trunk) (l : List Entry) : (s.setList t l).outside = s.outside := rfl
@[simp] theorem setList_memory (s : State) (t : Trunk) (l : List Entry) : (s.setList t l).memory = s.memory := rfl
@[simp] theorem setList_regs (s : State) (t : Trunk) (l : List Entry) : (s.setList t l).regs = s.regs := rfl
@[simp] theorem setList_session (s : State) (t : Trunk) (l : List Entry) : (s.setList t l).session = s.session := rfl
@[simp] theorem setList_port (s : State) (t : Trunk) (l : List Entry) : (s.setList t l).port = s.port := rfl
@[simp] theorem setList_sweeper (s : State) (t : Trunk) (l : List Entry) : (s.setList t l).sweeper = s.sweeper := rfl
@[simp] theorem setList_engines (s : State) (t : Trunk) (l : List Entry) : (s.setList t l).engines = s.engines := rfl
@[simp] theorem setList_director (s : State) (t : Trunk) (l : List Entry) : (s.setList t l).director = s.director := rfl
@[simp] theorem setList_results (s : State) (t : Trunk) (l : List Entry) : (s.setList t l).results = s.results := rfl
@[simp] theorem setList_header (s : State) (t : Trunk) (l : List Entry) : (s.setList t l).header = s.header := rfl
@[simp] theorem setList_standby (s : State) (t : Trunk) (l : List Entry) : (s.setList t l).standby = s.standby := rfl
@[simp] theorem setList_free (s : State) (t : Trunk) (l : List Entry) : (s.setList t l).free = s.free := rfl

@[simp] theorem list_setEngine (s : State) (t u : Trunk) (e : Engine) : (s.setEngine t e).list u = s.list u := rfl

@[simp] theorem engine_setList (s : State) (t u : Trunk) (l : List Entry) : (s.setList t l).engine u = s.engine u := rfl

/-! ### Time -/

@[simp] theorem now_eq (s : State) : s.now = s.session.deviceTime := rfl

end Sys2Proof.Laws
end

