-- ==== Sys2Proof/Laws/Frame.lean ====
section
/-! SUPPORT. What the shared operations of the trunks, the scheduler, the director and the result writer leave alone: one
lemma for each operation, which later proofs cite in place of unfolding it. -/

namespace Sys2Proof.Laws

open Sys2Proof.Machine Sys2Proof.Safety

/-! ### The relation -/

theorem keeps_refl (s : State) : SameElsewhereAndStandby s s := ⟨⟨rfl, rfl, rfl, rfl, rfl, rfl, rfl, rfl⟩, rfl⟩

theorem keeps_trans {r s t : State} (h : SameElsewhereAndStandby r s) (k : SameElsewhereAndStandby s t) :
    SameElsewhereAndStandby r t := by
  obtain ⟨⟨a1, a2, a3, a4, a5, a6, a7, a8⟩, a9⟩ := h
  obtain ⟨⟨b1, b2, b3, b4, b5, b6, b7, b8⟩, b9⟩ := k
  exact ⟨⟨b1.trans a1, b2.trans a2, b3.trans a3, b4.trans a4, b5.trans a5, b6.trans a6, b7.trans a7, b8.trans a8⟩,
    b9.trans a9⟩

/-! ### Updates of one part -/

theorem keeps_setEngine (s : State) (t : Trunk) (e : Engine) : SameElsewhereAndStandby s (s.setEngine t e) := keeps_refl s
theorem keeps_updateEngine (s : State) (t : Trunk) (f : Engine → Engine) :
    SameElsewhereAndStandby s (s.updateEngine t f) := keeps_refl s
theorem keeps_setSched (s : State) (x : Scheduler) : SameElsewhereAndStandby s (s.setSched x) := keeps_refl s
theorem keeps_setList (s : State) (t : Trunk) (l : List Entry) : SameElsewhereAndStandby s (s.setList t l) := keeps_refl s
theorem keeps_updateEntry (s : State) (t : Trunk) (i : Nat) (f : Entry → Entry) :
    SameElsewhereAndStandby s (s.updateEntry t i f) := keeps_refl s
theorem keeps_setRepeats (s : State) (l : List RepeatEntry) : SameElsewhereAndStandby s (s.setRepeats l) := keeps_refl s
theorem keeps_updateRepeat (s : State) (i : Nat) (f : RepeatEntry → RepeatEntry) :
    SameElsewhereAndStandby s (s.updateRepeat i f) := keeps_refl s
theorem keeps_setRegs (s : State) (x : Registers) : SameElsewhereAndStandby s (s.setRegs x) := keeps_refl s
theorem keeps_setDirector (s : State) (x : Director) : SameElsewhereAndStandby s (s.setDirector x) := keeps_refl s
theorem keeps_setFrames (s : State) (q : List QueuedFrame) : SameElsewhereAndStandby s (s.setFrames q) := keeps_refl s
theorem keeps_setReceiveList (s : State) (l : List Offered) : SameElsewhereAndStandby s (s.setReceiveList l) :=
  keeps_refl s
theorem keeps_setResults (s : State) (x : ResultWriter) : SameElsewhereAndStandby s (s.setResults x) := keeps_refl s
theorem keeps_raise (s : State) (c : Cause) : SameElsewhereAndStandby s (s.raise c) := keeps_refl s
theorem keeps_tally (s : State) (t : Trunk) (f : Tally → Tally) : SameElsewhereAndStandby s (s.tally t f) := keeps_refl s
theorem keeps_setQueue (s : State) (q : List Work) : SameElsewhereAndStandby s (s.setQueue q) := keeps_refl s
theorem keeps_handDone (s : State) (i : Nat) (r : SendResult) : SameElsewhereAndStandby s (s.handDone i r) := keeps_refl s
theorem keeps_handRejected (s : State) (i : Nat) (r : ResultCode) : SameElsewhereAndStandby s (s.handRejected i r) :=
  keeps_refl s
theorem keeps_handRound (s : State) (i : Nat) (r : SendResult) : SameElsewhereAndStandby s (s.handRound i r) :=
  keeps_refl s
theorem keeps_endRepeat (s : State) (r : RepeatEntry) (c : ResultCode) (g : Figures) (w : Word) :
    SameElsewhereAndStandby s (s.endRepeat r c g w) := keeps_refl s
theorem keeps_flipToggle (s : State) (t : Trunk) (d : Nat) : SameElsewhereAndStandby s (s.flipToggle t d) := keeps_refl s
theorem keeps_malformedSeen (s : State) (t : Trunk) : SameElsewhereAndStandby s (s.malformedSeen t) := keeps_refl s
theorem keeps_assignSlots (s : State) : SameElsewhereAndStandby s s.assignSlots := keeps_refl s
theorem keeps_dropFrame (s : State) (i : Nat) : SameElsewhereAndStandby s (s.dropFrame i) := keeps_refl s

/-! ### COMPLETE -/

theorem keeps_raiseComplete (s : State) : SameElsewhereAndStandby s s.raiseComplete := keeps_refl s

theorem keeps_completeCheck (s : State) : SameElsewhereAndStandby s s.completeCheck := by
  unfold State.completeCheck
  split
  · exact keeps_refl s
  · exact keeps_raiseComplete s

theorem keeps_countWritten (s : State) (c : Half) : SameElsewhereAndStandby s (s.countWritten c) := by
  unfold State.countWritten
  dsimp only
  split
  · exact keeps_refl s
  · exact keeps_refl s

/-! ### Selection and finishing -/

theorem keeps_withdraw (s : State) (t : Trunk) : SameElsewhereAndStandby s (s.withdraw t) := by
  unfold State.withdraw
  split <;> exact keeps_refl s

theorem keeps_armEntry (s : State) (t : Trunk) (e : Entry) : SameElsewhereAndStandby s (s.armEntry t e) := keeps_refl s

theorem keeps_select (s : State) (t : Trunk) : SameElsewhereAndStandby s (s.select t) := by
  unfold State.select
  split
  · split
    · exact keeps_withdraw s t
    · split
      · exact keeps_refl s
      · exact keeps_armEntry s t _
  · exact keeps_refl s

theorem keeps_removeEntry (s : State) (t : Trunk) (i : Nat) : SameElsewhereAndStandby s (s.removeEntry t i) := by
  unfold State.removeEntry
  dsimp only
  split <;> exact keeps_refl s

theorem keeps_roundEnded (s : State) (i : Nat) (c : ResultCode) (g : Figures) (w : Word) :
    SameElsewhereAndStandby s (s.roundEnded i c g w) := by
  unfold State.roundEnded
  split
  · exact keeps_refl s
  · dsimp only
    repeat' split
    all_goals exact keeps_refl s

theorem keeps_handOn (s : State) (e : Entry) (c : ResultCode) (w : Word) :
    SameElsewhereAndStandby s (s.handOn e c w) := by
  unfold State.handOn
  split
  · exact keeps_roundEnded _ _ _ _ _
  · exact keeps_refl s

theorem keeps_finishEntry (s : State) (t : Trunk) (e : Entry) (c : ResultCode) (w : Word) :
    SameElsewhereAndStandby s (s.finishEntry t e c w) :=
  keeps_trans (keeps_removeEntry s t e.index) (keeps_handOn _ _ _ _)

theorem keeps_handOnAll (code : ResultCode) (stamp : Word) (l : List Entry) (s : State) :
    SameElsewhereAndStandby s (handOnAll code stamp l s) := by
  induction l generalizing s with
  | nil => exact keeps_refl s
  | cons e es ih => exact keeps_trans (keeps_handOn s e _ _) (ih _)

theorem keeps_endRepeats (code : ResultCode) (w : Word) (l : List RepeatEntry) (s : State) :
    SameElsewhereAndStandby s (endRepeats code w l s) := by
  induction l generalizing s with
  | nil => exact keeps_refl s
  | cons r rs ih => exact keeps_trans (keeps_endRepeat s r _ _ _) (ih _)

theorem keeps_finishTrunk (s : State) (t : Trunk) (code : ResultCode) (stamp : Word) :
    SameElsewhereAndStandby s (s.finishTrunk t code stamp) := by
  unfold State.finishTrunk
  exact keeps_trans (keeps_trans (keeps_trans (keeps_withdraw s t) (keeps_setList _ _ _)) (keeps_handOnAll _ _ _ _))
    (keeps_endRepeats _ _ _ _)

theorem keeps_setOffDone (s : State) (t : Trunk) (b : Bool) : SameElsewhereAndStandby s (s.setOffDone t b) :=
  keeps_refl s

theorem keeps_trunkOffProcessing (s : State) (t : Trunk) : SameElsewhereAndStandby s (s.trunkOffProcessing t) :=
  keeps_trans (keeps_setOffDone s t true) (keeps_finishTrunk _ _ _ _)

theorem keeps_setOffOwed (s : State) (t : Trunk) (b : Bool) : SameElsewhereAndStandby s (s.setOffOwed t b) :=
  keeps_refl s

theorem keeps_offIfOwed (s : State) (t : Trunk) : SameElsewhereAndStandby s (s.offIfOwed t) := by
  unfold State.offIfOwed
  split
  · exact keeps_trans (keeps_setOffOwed s t false) (keeps_trunkOffProcessing _ _)
  · exact keeps_refl s

theorem keeps_owedTrunksOff (s : State) : SameElsewhereAndStandby s s.owedTrunksOff :=
  keeps_trans (keeps_trans (keeps_trans (keeps_offIfOwed s 0) (keeps_offIfOwed _ 1)) (keeps_offIfOwed _ 2))
    (keeps_offIfOwed _ 3)

theorem keeps_dropOwedOff (s : State) : SameElsewhereAndStandby s s.dropOwedOff := keeps_refl s

theorem keeps_stopProcessing (s : State) (t : Trunk) : SameElsewhereAndStandby s (s.stopProcessing t) :=
  keeps_trans (keeps_setSched s _) (keeps_finishTrunk _ _ _ _)

theorem keeps_stopIfClear (s : State) (t : Trunk) : SameElsewhereAndStandby s (s.stopIfClear t) := by
  unfold State.stopIfClear
  split
  · exact keeps_stopProcessing s t
  · exact keeps_refl s

theorem keeps_finishMarked (l : List Marked) (s : State) : SameElsewhereAndStandby s (finishMarked l s) := by
  induction l generalizing s with
  | nil => exact keeps_refl s
  | cons m ms ih => exact keeps_trans (keeps_trans (keeps_finishEntry _ _ _ _ _) (keeps_select _ _)) (ih _)

theorem keeps_finishAtStop (l : List Marked) (s : State) : SameElsewhereAndStandby s (finishAtStop l s) := by
  induction l generalizing s with
  | nil => exact keeps_refl s
  | cons m ms ih => exact keeps_trans (keeps_finishEntry _ _ _ _ _) (ih _)

/-! ### Joining, rounds and repetitions -/

theorem keeps_joinEntry (s : State) (i : Nat) (c : SendCopy) (r : Bool) :
    SameElsewhereAndStandby s (s.joinEntry i c r) := by
  unfold State.joinEntry
  dsimp only
  split
  · exact keeps_trans (keeps_setSched s _) (keeps_finishEntry _ _ _ _ _)
  · exact keeps_trans (keeps_setSched s _) (keeps_select _ _)

theorem keeps_joinRound (s : State) (t : Trunk) : SameElsewhereAndStandby s (s.joinRound t) := by
  unfold State.joinRound
  split
  · split
    · exact keeps_refl s
    · exact keeps_trans (keeps_updateRepeat s _ _) (keeps_joinEntry _ _ _ _)
  · exact keeps_refl s

theorem keeps_dueTimeOf (s : State) (r : RepeatEntry) : SameElsewhereAndStandby s (s.dueTimeOf r) := by
  unfold State.dueTimeOf
  dsimp only
  repeat' split
  all_goals first
    | exact keeps_refl s
    | exact keeps_trans (keeps_updateRepeat s _ _) (keeps_joinRound _ _)

theorem keeps_joinRepeat (s : State) (i : Nat) (c : SendCopy) (p : Nat) :
    SameElsewhereAndStandby s (s.joinRepeat i c p) := by
  unfold State.joinRepeat
  dsimp only
  split
  · exact keeps_refl s
  · exact keeps_trans (keeps_setRepeats s _) (keeps_dueTimeOf _ _)

/-! ### Outcomes, expiry, cancellation -/

theorem keeps_decideEntry (s : State) (t : Trunk) (e : Entry) (o : AttemptOutcome) :
    SameElsewhereAndStandby s (s.decideEntry t e o) := by
  unfold State.decideEntry
  dsimp only
  repeat' split
  · exact keeps_trans (keeps_flipToggle s _ _) (keeps_finishEntry _ _ _ _ _)
  all_goals first
    | exact keeps_finishEntry _ _ _ _ _
    | exact keeps_refl s

theorem keeps_outcome (s : State) (t : Trunk) (i : Nat) (o : AttemptOutcome) :
    SameElsewhereAndStandby s (s.outcome t i o) := by
  unfold State.outcome
  split
  · split
    · exact keeps_refl s
    · exact keeps_trans (keeps_trans (keeps_decideEntry _ _ _ _) (keeps_select _ _)) (keeps_stopIfClear _ _)
  · exact keeps_refl s

theorem keeps_expireEntry (s : State) (t : Trunk) (e : Entry) : SameElsewhereAndStandby s (s.expireEntry t e) := by
  unfold State.expireEntry
  repeat' split
  · exact keeps_refl s
  · exact keeps_refl s
  · exact keeps_trans (keeps_finishEntry _ _ _ _ _) (keeps_select _ _)

theorem keeps_cancelEntry (s : State) (t : Trunk) (e : Entry) : SameElsewhereAndStandby s (s.cancelEntry t e) := by
  unfold State.cancelEntry
  dsimp only
  repeat' split
  all_goals first
    | exact keeps_refl s
    | exact keeps_trans (keeps_finishEntry _ _ _ _ _) (keeps_select _ _)

theorem keeps_sendCancel (s : State) (i : Nat) : SameElsewhereAndStandby s (s.sendCancel i) := by
  unfold State.sendCancel
  repeat' split
  all_goals first
    | exact keeps_cancelEntry _ _ _
    | exact keeps_refl s

theorem keeps_endRest (s : State) (t : Trunk) (i : Nat) : SameElsewhereAndStandby s (s.endRest t i) :=
  keeps_trans (keeps_updateEntry s t i _) (keeps_select _ _)

/-! ### The director -/

theorem keeps_assignIfRunning (s : State) : SameElsewhereAndStandby s s.assignIfRunning := by
  unfold State.assignIfRunning
  split
  · exact keeps_assignSlots s
  · exact keeps_refl s

theorem keeps_receiveCancel (s : State) (i : Nat) : SameElsewhereAndStandby s (s.receiveCancel i) := by
  unfold State.receiveCancel
  split <;> exact keeps_refl s

theorem keeps_passCancel (s : State) (i : Nat) : SameElsewhereAndStandby s (s.passCancel i) := by
  unfold State.passCancel
  split
  · exact keeps_sendCancel s i
  · exact keeps_receiveCancel s i

theorem keeps_refuseFrames (l : List QueuedFrame) (s : State) : SameElsewhereAndStandby s (refuseFrames l s) := by
  induction l generalizing s with
  | nil => exact keeps_refl s
  | cons q qs ih => exact keeps_trans (keeps_tally s _ _) (ih _)

theorem keeps_closeQueue (s : State) : SameElsewhereAndStandby s s.closeQueue :=
  keeps_trans (keeps_setFrames s _) (keeps_refuseFrames _ _)

theorem same_reportAcceptance (s : State) (t : Trunk) : SameElsewhere s (s.reportAcceptance t) := by
  unfold State.reportAcceptance
  split
  · exact (keeps_refl s).1
  · exact (keeps_refl s).1

theorem keeps_rememberUnicast (s : State) (t : Trunk) (g : GoodFrame) :
    SameElsewhereAndStandby s (s.rememberUnicast t g) := by
  unfold State.rememberUnicast
  split <;> exact keeps_refl s

theorem same_trans {r s t : State} (h : SameElsewhere r s) (k : SameElsewhere s t) : SameElsewhere r t := by
  obtain ⟨a1, a2, a3, a4, a5, a6, a7, a8⟩ := h
  obtain ⟨b1, b2, b3, b4, b5, b6, b7, b8⟩ := k
  exact ⟨b1.trans a1, b2.trans a2, b3.trans a3, b4.trans a4, b5.trans a5, b6.trans a6, b7.trans a7, b8.trans a8⟩

theorem same_acceptFrame (s : State) (t : Trunk) (g : GoodFrame) : SameElsewhere s (s.acceptFrame t g) := by
  unfold State.acceptFrame
  dsimp only
  split
  · exact same_trans (same_trans (keeps_setFrames s _).1 (keeps_rememberUnicast _ _ _).1) (same_reportAcceptance _ _)
  · exact same_trans (same_trans (keeps_setFrames s _).1 (keeps_rememberUnicast _ _ _).1) (keeps_assignIfRunning _).1

theorem same_decideFrame (s : State) (t : Trunk) (g : GoodFrame) : SameElsewhere s (s.decideFrame t g).1 := by
  unfold State.decideFrame
  repeat' split
  all_goals first
    | exact same_acceptFrame s t g
    | exact (keeps_refl s).1

/-! ### The engines -/

theorem keeps_attemptEnds (s : State) (t : Trunk) (o : AttemptOutcome) :
    SameElsewhereAndStandby s (s.attemptEnds t o) := by
  unfold State.attemptEnds
  split
  · exact keeps_refl s
  · exact keeps_trans (keeps_updateEngine s _ _) (keeps_outcome _ _ _ _)

theorem keeps_shapeInSending (s : State) (t : Trunk) : SameElsewhereAndStandby s (s.shapeInSending t) :=
  keeps_trans (keeps_trans (keeps_updateEngine s _ _) (keeps_tally _ _ _)) (keeps_attemptEnds _ _ _)

theorem keeps_foreignFrameEnds (s : State) (t : Trunk) : SameElsewhereAndStandby s (s.foreignFrameEnds t) :=
  keeps_trans (keeps_updateEngine s _ _) (keeps_select _ _)

theorem keeps_abandonFrame (s : State) (t : Trunk) : SameElsewhereAndStandby s (s.abandonFrame t) :=
  keeps_trans (keeps_trans (keeps_updateEngine s _ _) (keeps_malformedSeen _ _)) (keeps_select _ _)

theorem keeps_lostAtFall (s : State) (t : Trunk) : SameElsewhereAndStandby s (s.lostAtFall t) := by
  unfold State.lostAtFall
  split
  · exact keeps_refl s
  · exact keeps_trans (keeps_trans (keeps_updateEngine s _ _) (keeps_tally _ _ _)) (keeps_outcome _ _ _ _)

theorem keeps_tailAtRise (s : State) (t : Trunk) : SameElsewhereAndStandby s (s.tailAtRise t) := by
  unfold State.tailAtRise
  dsimp only
  split
  · exact keeps_refl s
  · exact keeps_trans (keeps_trans (keeps_trans (keeps_updateEngine s _ _) (keeps_tally _ _ _)) (keeps_updateEngine _ _ _))
      (keeps_attemptEnds _ _ _)

theorem same_goodFrameAtRise (s : State) (t : Trunk) : SameElsewhere s (s.goodFrameAtRise t) := by
  unfold State.goodFrameAtRise
  dsimp only
  split
  · exact same_trans (same_trans (keeps_updateEngine s _ _).1 (same_decideFrame _ _ _)) (keeps_updateEngine _ _ _).1
  · exact same_trans (same_trans (keeps_updateEngine s _ _).1 (same_decideFrame _ _ _)) (keeps_foreignFrameEnds _ _).1

/-- A recognised edge touches nothing outside the trunks, the scheduler, the director, the result writer, the register
window and the standby logic. -/
theorem same_takeEdge (s : State) (t : Trunk) (l : Level) : SameElsewhere s (s.takeEdge t l) := by
  unfold State.takeEdge
  split
  · exact (keeps_updateEngine s _ _).1
  · exact (keeps_lostAtFall s t).1
  · exact (keeps_trans (keeps_trans (keeps_updateEngine s _ _) (keeps_shapeInSending _ _)) (keeps_updateEngine _ _ _)).1
  · exact (keeps_trans (keeps_trans (keeps_updateEngine s _ _) (keeps_abandonFrame _ _)) (keeps_updateEngine _ _ _)).1
  · exact same_goodFrameAtRise s t
  · exact (keeps_tailAtRise s t).1

theorem keeps_startLead (s : State) (t : Trunk) (e : Entry) : SameElsewhereAndStandby s (s.startLead t e) :=
  keeps_trans (keeps_updateEntry s t _ _) (keeps_updateEngine _ _ _)

theorem keeps_holdExpires (s : State) (t : Trunk) : SameElsewhereAndStandby s (s.holdExpires t) := by
  unfold State.holdExpires
  split
  · exact keeps_startLead s t _
  · dsimp only
    have h : SameElsewhereAndStandby s ((s.withdraw t).select t) := keeps_trans (keeps_withdraw s t) (keeps_select _ _)
    split
    · split
      · exact keeps_trans h (keeps_startLead _ _ _)
      · exact h
    · exact h

theorem keeps_takeOffReport (s : State) (t : Trunk) : SameElsewhereAndStandby s (s.takeOffReport t) := by
  unfold State.takeOffReport
  split
  · split
    · exact keeps_setOffOwed s t true
    · exact keeps_trunkOffProcessing s t
  · exact keeps_refl s

/-- All that a trunk-off report does (R102, R105, R169; log 33): nothing while the scheduler is frozen; kept back in
STANDBY in a part that waits; else the trunk-off processing. -/
theorem takeOffReport_cases (s : State) (t : Trunk) :
    (s.schedulerLive = false ∧ s.takeOffReport t = s)
      ∨ (s.session.state = .standby ∧ Config.trunkOffWaits = true ∧ s.takeOffReport t = s.setOffOwed t true)
      ∨ (s.schedulerLive = true ∧ (s.session.state ≠ .standby ∨ Config.trunkOffWaits = false)
          ∧ s.takeOffReport t = s.trunkOffProcessing t) := by
  unfold State.takeOffReport
  by_cases hl : s.schedulerLive = true
  · rw [if_pos hl]
    by_cases hk : s.keepsTrunkOff = true
    · have hs : s.session.state = .standby ∧ Config.trunkOffWaits = true := by simpa [State.keepsTrunkOff] using hk
      exact .inr (.inl ⟨hs.1, hs.2, if_pos hk⟩)
    · refine .inr (.inr ⟨hl, ?_, if_neg hk⟩)
      have hn : s.session.state = .standby → Config.trunkOffWaits = false := by simpa [State.keepsTrunkOff] using hk
      by_cases hs : s.session.state = .standby
      · exact .inr (hn hs)
      · exact .inl hs
  · exact .inl ⟨Bool.eq_false_iff.mpr hl, if_neg hl⟩

theorem keeps_trunkGoesOff (s : State) (t : Trunk) : SameElsewhereAndStandby s (s.trunkGoesOff t) :=
  keeps_trans (keeps_updateEngine s _ _) (keeps_takeOffReport _ _)

theorem keeps_takeTiming (s : State) (t : Trunk) : SameElsewhereAndStandby s (s.takeTiming t) := keeps_updateEngine s _ _

theorem keeps_settleReply (s : State) (t : Trunk) (o : AttemptOutcome) :
    SameElsewhereAndStandby s (s.settleReply t o) := by
  unfold State.settleReply
  split
  · exact keeps_trans (keeps_tally s _ _) (keeps_attemptEnds _ _ _)
  · exact keeps_attemptEnds _ _ _

theorem keeps_selectInWindow (s : State) (t : Trunk) : SameElsewhereAndStandby s (s.selectInWindow t) := by
  unfold State.selectInWindow
  split
  · exact keeps_select s t
  · exact keeps_refl s

end Sys2Proof.Laws
end

