-- ==== Sys2Proof/Laws/Bus.lean ====
section
/-! SUPPORT. What the sweeper, the session controller and the completion of an access leave of memory and port. -/

namespace Sys2Proof.Laws

open Sys2Proof.Machine Sys2Proof.Safety

theorem bus_refl (s : State) : SameBus s s := ⟨rfl, rfl, rfl, rfl, rfl⟩

theorem bus_trans {r s t : State} (h : SameBus r s) (k : SameBus s t) : SameBus r t := by
  obtain ⟨a1, a2, a3, a4, a5⟩ := h
  obtain ⟨b1, b2, b3, b4, b5⟩ := k
  exact ⟨b1.trans a1, b2.trans a2, b3.trans a3, b4.trans a4, b5.trans a5⟩

theorem bus_of_same {s t : State} (h : SameElsewhere s t) : SameBus s t := by
  obtain ⟨a1, a2, a3, a4, a5, a6, a7, a8⟩ := h
  exact ⟨a1, a3, a8, a6, a7⟩

theorem bus_of_keeps {s t : State} (h : SameElsewhereAndStandby s t) : SameBus s t := bus_of_same h.1

/-! ### The sweeper -/

theorem bus_startSweep (s : State) : SameBus s s.startSweep := bus_refl s

theorem bus_askSweep (s : State) : SameBus s s.askSweep := by
  unfold State.askSweep
  split <;> exact bus_refl s

theorem bus_sweepEnds (s : State) : SameBus s s.sweepEnds := by
  unfold State.sweepEnds
  dsimp only
  split <;> exact bus_refl s

theorem bus_indexHandled (s : State) : SameBus s s.indexHandled := by
  unfold State.indexHandled
  split
  · exact bus_refl s
  · split
    · exact bus_refl s
    · split
      · exact bus_refl s
      · exact bus_sweepEnds s

theorem bus_rejectIndex (s : State) (i : Nat) (r : ResultCode) : SameBus s (s.rejectIndex i r) := bus_refl s
theorem bus_cancelIndex (s : State) (i : Nat) : SameBus s (s.cancelIndex i) := bus_refl s
theorem bus_setStage (s : State) (g : SweepStage) : SameBus s (s.setStage g) := bus_refl s
theorem bus_reserve (s : State) (t : Trunk) (p : Place) (c : Claim) : SameBus s (s.reserve t p c) := bus_refl s
theorem bus_hold (s : State) (i : Nat) : SameBus s (s.hold i) := bus_refl s
theorem bus_unhold (s : State) (i : Nat) : SameBus s (s.unhold i) := bus_refl s
theorem bus_cutSweep (s : State) : SameBus s s.cutSweep := bus_refl s
theorem bus_claimSend (s : State) (i : Nat) : SameBus s (s.claimSend i) := bus_refl s

theorem bus_sendWord0 (s : State) (i : Nat) (bs : List Byte) : SameBus s (s.sendWord0 i bs) := by
  unfold State.sendWord0
  repeat' split
  all_goals first
    | exact bus_trans (bus_rejectIndex s i _) (bus_indexHandled _)
    | exact bus_trans (bus_cancelIndex s i) (bus_indexHandled _)
    | exact bus_indexHandled s
    | exact bus_setStage s _

theorem bus_receiveWord0 (s : State) (i : Nat) (bs : List Byte) : SameBus s (s.receiveWord0 i bs) := by
  unfold State.receiveWord0
  repeat' split
  all_goals first
    | exact bus_trans (bus_rejectIndex s i _) (bus_indexHandled _)
    | exact bus_indexHandled s
    | exact bus_setStage s _

theorem bus_word0Read (s : State) (bs : List Byte) : SameBus s (s.word0Read bs) := by
  unfold State.word0Read
  split
  · exact bus_refl s
  · split
    · split
      · exact bus_trans (bus_of_keeps (keeps_passCancel s _)) (bus_indexHandled _)
      · exact bus_indexHandled s
    · split
      · exact bus_sendWord0 _ _ _
      · exact bus_receiveWord0 _ _ _

theorem bus_roomTest (s : State) (i : Nat) (e : SendFields) : SameBus s (s.roomTest i e) := by
  unfold State.roomTest
  repeat' split
  all_goals first
    | exact bus_reserve s _ _ _
    | exact bus_trans (bus_rejectIndex s i _) (bus_indexHandled _)
    | exact bus_indexHandled s

theorem bus_envelopeRead (s : State) (bs : List Byte) : SameBus s (s.envelopeRead bs) := by
  unfold State.envelopeRead
  repeat' split
  all_goals first
    | exact bus_refl s
    | exact bus_trans (bus_rejectIndex s _ _) (bus_indexHandled _)
    | exact bus_trans (bus_cancelIndex s _) (bus_indexHandled _)
    | exact bus_indexHandled s
    | exact bus_roomTest _ _ _

theorem bus_word1Read (s : State) (bs : List Byte) : SameBus s (s.word1Read bs) := by
  unfold State.word1Read
  repeat' split
  all_goals first
    | exact bus_refl s
    | exact bus_trans (bus_rejectIndex s _ _) (bus_indexHandled _)
    | exact bus_indexHandled s

theorem bus_claimWritten (s : State) : SameBus s s.claimWritten := by
  unfold State.claimWritten
  repeat' split
  all_goals first
    | exact bus_refl s
    | exact bus_trans (bus_trans (bus_claimSend s _) (bus_of_keeps (keeps_joinEntry _ _ _ _))) (bus_indexHandled _)
    | exact bus_trans (bus_trans (bus_claimSend s _) (bus_of_keeps (keeps_joinRepeat _ _ _ _))) (bus_indexHandled _)
    | exact bus_trans (bus_trans (bus_trans (bus_hold s _) (bus_of_keeps (keeps_setReceiveList _ _)))
        (bus_of_keeps (keeps_assignIfRunning _))) (bus_indexHandled _)

/-! ### The session controller -/

theorem bus_refuse (s : State) (c : BitVec 4) (r : RefusalReason) : SameBus s (s.refuse c r) := bus_refl s
theorem bus_beginCommand (s : State) (c : Command) : SameBus s (s.beginCommand c) := bus_refl s
theorem bus_finishCommand (s : State) (c : Command) : SameBus s (s.finishCommand c) := bus_refl s
theorem bus_areaInvalid (s : State) (c : Command) (o : Nat) : SameBus s (s.areaInvalid c o) := bus_refl s
theorem bus_startFirstPart (s : State) (h : HeaderBytes) : SameBus s (s.startFirstPart h) := by
  simp [SameBus, State.startFirstPart, State.askHeader]

theorem bus_startRead (s : State) (bs : List Byte) : SameBus s (s.startRead bs) := by
  unfold State.startRead
  split
  · exact bus_areaInvalid _ _ _
  · exact bus_startFirstPart _ _

theorem bus_startUnitWritten (s : State) : SameBus s s.startUnitWritten := bus_refl s

theorem bus_reloadMode (s : State) (t : Trunk) (m : Mode) : SameBus s (s.reloadMode t m) := by
  unfold State.reloadMode
  split
  all_goals first
    | exact bus_refl s
    | exact bus_trans (bus_of_keeps (keeps_withdraw s t)) (bus_of_keeps (keeps_updateEngine _ _ _))

theorem bus_reloadTrunk (s : State) (t : Trunk) (r : TrunkRecord) : SameBus s (s.reloadTrunk t r) := by
  have h : SameBus s
      ((((s.updateEngine t (fun e => e.reloadTiming r.timing)).reloadMode t r.mode).reloadListen t r.listen).reloadSched
        t r) :=
    bus_trans (bus_trans (bus_of_keeps (keeps_updateEngine s t _)) (bus_reloadMode _ _ _)) (bus_refl _)
  unfold State.reloadTrunk
  dsimp only
  split
  · exact bus_trans h (bus_of_keeps (keeps_select _ _))
  · exact h

theorem bus_handSettings (s : State) (v : Settings) : SameBus s (s.handSettings v) := by
  unfold State.handSettings
  dsimp only
  refine bus_trans ?_ (bus_reloadTrunk _ _ _)
  refine bus_trans ?_ (bus_reloadTrunk _ _ _)
  refine bus_trans ?_ (bus_reloadTrunk _ _ _)
  exact bus_trans (bus_refl s) (bus_reloadTrunk _ _ _)

theorem bus_offAtOnce (s : State) (t : Trunk) : SameBus s (s.offAtOnce t) := by
  unfold State.offAtOnce
  split
  · exact bus_of_keeps (keeps_trunkGoesOff s t)
  · exact bus_refl s

theorem bus_reloadRead (s : State) (bs : List Byte) : SameBus s (s.reloadRead bs) := by
  unfold State.reloadRead
  split
  · exact bus_areaInvalid _ _ _
  · refine bus_trans ?_ (bus_offAtOnce _ _)
    refine bus_trans ?_ (bus_offAtOnce _ _)
    refine bus_trans ?_ (bus_offAtOnce _ _)
    refine bus_trans ?_ (bus_offAtOnce _ _)
    exact bus_trans (bus_handSettings s _) (bus_finishCommand _ _)

theorem bus_completeCheck (s : State) : SameBus s s.completeCheck := bus_of_keeps (keeps_completeCheck s)
theorem bus_enterStandby (s : State) : SameBus s s.enterStandby :=
  bus_trans (bus_completeCheck s) (bus_refl s.completeCheck)
theorem bus_endResume (s : State) : SameBus s s.endResume := bus_refl s
theorem bus_askFinal (s : State) : SameBus s s.askFinal := bus_refl s

theorem bus_finishStop (s : State) : SameBus s s.finishStop := by
  have h := bus_completeCheck s
  unfold State.finishStop
  simpa [SameBus, State.enterSession, State.finishCommand, State.show, State.raise] using h

theorem bus_stopClearTrunks (s : State) : SameBus s s.stopClearTrunks :=
  bus_of_keeps (keeps_trans (keeps_trans (keeps_trans (keeps_stopIfClear s 0) (keeps_stopIfClear _ 1))
    (keeps_stopIfClear _ 2)) (keeps_stopIfClear _ 3))

theorem bus_acceptStop (s : State) : SameBus s s.acceptStop := by
  unfold State.acceptStop
  have h : SameBus s (((((s.enterSession .stopping).beginCommand .stop).dropWake).cutSweep).dropOwedOff) := bus_refl s
  have h1 := bus_trans h (bus_of_keeps (keeps_closeQueue _))
  refine bus_trans ?_ (bus_stopClearTrunks _)
  split
  · exact bus_trans h1 (bus_of_keeps (keeps_finishAtStop _ _))
  · exact h1

theorem bus_oweResults (s : State) : SameBus s s.oweResults := bus_refl s

theorem bus_resumeFromStandby (s : State) : SameBus s s.resumeFromStandby := by
  have h : SameBus s ((s.enterSession .running).dropWake.beginCommand .resume) := bus_refl s
  unfold State.resumeFromStandby
  exact bus_trans (bus_trans (bus_trans h (bus_of_keeps (keeps_finishMarked _ _)))
    (bus_of_keeps (keeps_owedTrunksOff _))) (bus_oweResults _)

theorem bus_acceptResume (s : State) : SameBus s s.acceptResume := by
  unfold State.acceptResume
  split
  · exact bus_resumeFromStandby s
  · exact bus_refl s

theorem bus_decideCommand (s : State) (c : Command) (f : State → State) (h : SameBus s (f s)) :
    SameBus s (s.decideCommand c f) := by
  unfold State.decideCommand
  split
  · exact bus_refuse _ _ _
  · exact h

/-! ### The completion of an access -/

theorem bus_headerDone (s : State) : SameBus s s.headerDone := bus_refl s
theorem bus_dequeue (s : State) : SameBus s s.dequeue := bus_refl s

theorem bus_frameWritten (s : State) (i : Nat) : SameBus s (s.frameWritten i) := by
  unfold State.frameWritten
  split <;> exact bus_refl s

/-- What the completion of an access brings about passes nothing over the bus: its memory effect is `landWrite`, and the
port moves on before it. -/
theorem bus_afterAccess (s : State) (k : UnitKind) (r : Role) (bs : List Byte) : SameBus s (s.afterAccess k r bs) := by
  unfold State.afterAccess
  split
  · exact bus_refl s
  · exact bus_word0Read s bs
  · exact bus_envelopeRead s bs
  · exact bus_word1Read s bs
  · exact bus_claimWritten s
  · unfold State.stateWritten
    split
    all_goals first
      | exact bus_frameWritten s _
      | exact bus_refl s
  · unfold State.countUnitDone
    split
    all_goals first
      | exact bus_trans (bus_dequeue s) (bus_of_keeps (keeps_countWritten _ _))
      | exact bus_of_keeps (keeps_countWritten s _)
      | exact bus_refl s
  · exact bus_dequeue s
  · unfold State.givenBack
    split <;> exact bus_refl s
  · exact bus_trans (bus_headerDone s) (bus_startRead _ _)
  · exact bus_trans (bus_headerDone s) (bus_startUnitWritten _)
  · exact bus_trans (bus_headerDone s) (bus_reloadRead _ _)
  · exact bus_trans (bus_headerDone s) (bus_completeCheck _)
  · exact bus_trans (bus_headerDone s) (bus_finishStop _)

/-- Memory and port after the completion of an access. -/
theorem completeAccess_memory (s : State) (u : PortUnit) :
    (s.completeAccess u).memory = (s.landWrite u.access).memory
      ∧ (s.completeAccess u).port = { s.port with unit := u.next (u.data ++ s.readData u.access) } := by
  have hp : (s.landWrite u.access).port = s.port := by
    unfold State.landWrite
    split <;> rfl
  have h := bus_afterAccess
    ((s.landWrite u.access).setPort { (s.landWrite u.access).port with unit := u.next (u.data ++ s.readData u.access) })
    u.kind u.access.role (u.data ++ s.readData u.access)
  refine ⟨h.1, ?_⟩
  rw [← hp]
  exact h.2.1

end Sys2Proof.Laws
end

