-- ==== Sys2Proof/Laws/Due.lean ====
section
/-! SUPPORT. Which event of the block's own is due: what each of the searches of Due.lean answers. -/

namespace Sys2Proof.Laws

open Sys2Proof.Machine Sys2Proof.Safety

/-! ### The searches -/

theorem orElse_none {α : Type} (x y : Option α) : orElse x y = none ↔ x = none ∧ y = none := by
  cases x <;> simp [orElse]

theorem orElse_some {α : Type} {x y : Option α} {a : α} (h : orElse x y = some a) : x = some a ∨ y = some a := by
  cases x with
  | none => exact .inr h
  | some _ => exact .inl h

theorem firstDue_none (l : List (Bool × Instr)) : firstDue l = none ↔ ∀ x ∈ l, x.1 = false := by
  induction l with
  | nil => simp [firstDue]
  | cons x l ih =>
    obtain ⟨due, c⟩ := x
    cases due <;> simp [firstDue, ih]

theorem firstDue_some {l : List (Bool × Instr)} {c : Instr} (h : firstDue l = some c) : (true, c) ∈ l := by
  induction l with
  | nil => exact nomatch h
  | cons x l ih =>
    obtain ⟨due, d⟩ := x
    cases due with
    | true => cases h; exact List.mem_cons_self
    | false => exact List.mem_cons_of_mem _ (ih h)

theorem firstOfTrunks_none (f : Trunk → Option Instr) : firstOfTrunks f = none ↔ ∀ t, f t = none := by
  unfold firstOfTrunks
  rw [orElse_none, orElse_none, orElse_none]
  refine ⟨fun ⟨h0, h1, h2, h3⟩ t => ?_, fun h => ⟨h 0, h 1, h 2, h 3⟩⟩
  match t with
  | 0 => exact h0
  | 1 => exact h1
  | 2 => exact h2
  | 3 => exact h3

theorem firstOfTrunks_some {f : Trunk → Option Instr} {c : Instr} (h : firstOfTrunks f = some c) : ∃ t, f t = some c := by
  unfold firstOfTrunks at h
  rcases orElse_some h with h | h
  · exact ⟨0, h⟩
  · rcases orElse_some h with h | h
    · exact ⟨1, h⟩
    · rcases orElse_some h with h | h
      · exact ⟨2, h⟩
      · exact ⟨3, h⟩

/-- The lowest trunk for which there is an event has the turn. -/
theorem firstOfTrunks_lowest {f : Trunk → Option Instr} {t : Trunk} {c : Instr} (h : f t = some c)
    (hl : ∀ o : Trunk, o.val < t.val → f o = none) : firstOfTrunks f = some c := by
  unfold firstOfTrunks
  match t with
  | 0 => simp [orElse, h]
  | 1 => simp [orElse, h, hl 0 (by decide)]
  | 2 => simp [orElse, h, hl 0 (by decide), hl 1 (by decide)]
  | 3 => simp [orElse, h, hl 0 (by decide), hl 1 (by decide), hl 2 (by decide)]

/-! ### The event whose turn it is -/

theorem dueEvent_none (s : State) :
    s.dueEvent = none ↔
      (∀ t, s.edgeEvent t = none) ∧ (∀ t, s.engineEvent t = none) ∧ s.windowSpent = false ∧ (∀ t, s.joinEvent t = none)
        ∧ s.repeatEvent = none ∧ (∀ t, s.entryEvent t = none) ∧ s.blockEvent = none := by
  unfold State.dueEvent
  simp only [orElse_none, firstOfTrunks_none]
  cases s.windowSpent <;> simp

theorem dueEvent_some {s : State} {c : Instr} (h : s.dueEvent = some c) :
    (∃ t, s.edgeEvent t = some c) ∨ (∃ t, s.engineEvent t = some c) ∨ (s.windowSpent = true ∧ c = .windowClose)
      ∨ (∃ t, s.joinEvent t = some c) ∨ s.repeatEvent = some c ∨ (∃ t, s.entryEvent t = some c)
      ∨ s.blockEvent = some c := by
  unfold State.dueEvent at h
  rcases orElse_some h with h | h
  · exact .inl (firstOfTrunks_some h)
  · rcases orElse_some h with h | h
    · exact .inr (.inl (firstOfTrunks_some h))
    · rcases orElse_some h with h | h
      · cases hw : s.windowSpent with
        | true => rw [hw] at h; cases h; exact .inr (.inr (.inl ⟨rfl, rfl⟩))
        | false => rw [hw] at h; cases h
      · rcases orElse_some h with h | h
        · exact .inr (.inr (.inr (.inl (firstOfTrunks_some h))))
        · rcases orElse_some h with h | h
          · exact .inr (.inr (.inr (.inr (.inl h))))
          · rcases orElse_some h with h | h
            · exact .inr (.inr (.inr (.inr (.inr (.inl (firstOfTrunks_some h))))))
            · exact .inr (.inr (.inr (.inr (.inr (.inr h)))))

/-! ### Edges -/

theorem edgeDue_iff (e : Engine) : e.edgeDue = true ↔ EdgeReached e := by
  unfold Engine.edgeDue EdgeReached Engine.wire
  simp only [Bool.and_eq_true, bne_iff_ne, decide_eq_true_eq, Bool.or_eq_true]

theorem edgeRow_edge (t : Trunk) (l : Level) (v : Verdict) : EdgeRow t (edgeRow t l v) := by
  cases v <;> simp [EdgeRow, edgeRow]

theorem edgeEvent_none (s : State) (t : Trunk) : s.edgeEvent t = none ↔ ¬ EdgeReached (s.engine t) := by
  rw [← edgeDue_iff]
  unfold State.edgeEvent
  dsimp only
  split <;> simp_all

theorem edgeEvent_some {s : State} {t : Trunk} {c : Instr} (h : s.edgeEvent t = some c) :
    EdgeReached (s.engine t) ∧ c = edgeRow t (otherLevel (s.engine t).level) (s.engine t).nextVerdict := by
  unfold State.edgeEvent at h
  dsimp only at h
  split at h
  · rename_i hd
    cases h
    exact ⟨(edgeDue_iff _).1 hd, rfl⟩
  · cases h

end Sys2Proof.Laws
end

