-- ==== Sys2Proof/Laws/Endings.lean ====
section
/-! SUPPORT. What the ends of entries, rounds and repetitions do: the outcome at joining, an uncounted end handed on,
repetitions ended; the order at STOP from STANDBY. -/

namespace Sys2Proof.Laws

open Sys2Proof.Machine Sys2Proof.Safety

/-! ### The outcome at joining (R84, R102, R104, R116, R117) -/

/-- A trunk that has had its STOP processing ends what joins it STOPPED. -/
theorem endAtJoining_stopped (s : State) (t : Trunk) (h : s.session.state = .stopping) (k : s.sched.stopDone.get t = true) :
    s.endAtJoining t = some .stopped := by
  unfold State.endAtJoining
  rw [if_pos ⟨h, k⟩]

/-- A trunk that has had its trunk-off processing, and not its STOP processing, ends what joins it TRUNK_OFF. -/
theorem endAtJoining_trunkOff (s : State) (t : Trunk) (h : ¬(s.session.state = .stopping ∧ s.sched.stopDone.get t = true))
    (k : s.sched.offDone.get t = true) : s.endAtJoining t = some .trunkOff := by
  unfold State.endAtJoining
  rw [if_neg h, k]
  rfl

/-- On a trunk that has had neither processing, an entry joins. -/
theorem endAtJoining_none (s : State) (t : Trunk) (h : ¬(s.session.state = .stopping ∧ s.sched.stopDone.get t = true))
    (k : s.sched.offDone.get t = false) : s.endAtJoining t = none := by
  unfold State.endAtJoining
  rw [if_neg h, k]
  rfl

/-! ### Uncounted ends handed on (R86, R102, R112, R114, R116) -/

/-- An entry handed on with an uncounted outcome. -/
theorem handOn_uncounted (s : State) (x : Entry) (c : ResultCode) (w : Word) (hc : c.endsRound = false) :
    s.handOn x c w = { s with
      sched :=
        { s.sched with
          repeats := if x.round then s.sched.repeats.filter (fun r => r.index != x.index) else s.sched.repeats }
      results := { s.results with queue := s.results.queue ++ uncountedDone s.sched.repeats c w x } } := by
  unfold State.handOn uncountedDone
  cases hr : x.round with
  | false => rfl
  | true =>
    simp only [if_true]
    unfold State.roundEnded State.findRepeat
    cases hf : s.sched.repeats.find? (fun r => r.index == x.index) with
    | none =>
      dsimp only
      have : s.sched.repeats.filter (fun r => r.index != x.index) = s.sched.repeats := by
        apply List.filter_eq_self.2
        intro r hr
        have := List.find?_eq_none.1 hf r hr
        simpa using this
      rw [this]; simp
    | some r =>
      dsimp only
      rw [hc]
      have hi : r.index = x.index := by simpa using List.find?_some hf
      simp only [State.endRepeat, State.handDone, State.setQueue, State.setRepeats, State.setSched, State.setResults, hi,
        roundDone, RepeatEntry.finalFigures, Entry.figures, Bool.false_eq_true, if_false]
      rfl

/-- Taking one repeat entry out leaves the search for another index. -/
theorem find_repeat_filter_ne (l : List RepeatEntry) (i j : Nat) (h : i ≠ j) :
    (l.filter (fun r => r.index != j)).find? (fun r => r.index == i) = l.find? (fun r => r.index == i) := by
  induction l with
  | nil => rfl
  | cons r rs ih =>
    rw [List.filter_cons]
    by_cases hj : r.index = j
    · rw [if_neg (by simp [hj]), ih, List.find?_cons]
      have : (r.index == i) = false := by simp; rw [hj]; exact fun h2 => h h2.symm
      rw [this]
    · rw [if_pos (by simp [hj]), List.find?_cons, List.find?_cons, ih]

/-- What an uncounted end hands on depends on the repeat entry of its index alone. -/
theorem uncountedDone_congr (a b : List RepeatEntry) (c : ResultCode) (w : Word) (x : Entry)
    (h : x.round = true → b.find? (fun r => r.index == x.index) = a.find? (fun r => r.index == x.index)) :
    uncountedDone b c w x = uncountedDone a c w x := by
  unfold uncountedDone
  cases hr : x.round with
  | false => rfl
  | true =>
    simp only [if_true]
    rw [h hr]

/-- Entries of distinct indices handed on in turn with an uncounted outcome at a moment. -/
theorem handOnAll_uncounted (c : ResultCode) (hc : c.endsRound = false) (w : Word) (l : List Entry) (s : State)
    (hn : (l.map Entry.index).Nodup) :
    handOnAll c w l s = { s with
      sched := { s.sched with repeats := s.sched.repeats.filter (fun r => !roundIn l r) }
      results := { s.results with queue := s.results.queue ++ l.flatMap (uncountedDone s.sched.repeats c w) } } := by
  induction l generalizing s with
  | nil => simp [handOnAll, roundIn]
  | cons x xs ih =>
    simp only [handOnAll]
    rw [List.map_cons, List.nodup_cons] at hn
    have hv := handOn_uncounted s x c w hc
    generalize s.handOn x c w = v at *
    rw [ih v hn.2]
    have hfl : xs.flatMap (uncountedDone v.sched.repeats c w) = xs.flatMap (uncountedDone s.sched.repeats c w) := by
      apply List.flatMap_congr
      intro y hy
      apply uncountedDone_congr
      intro _
      rw [hv]
      dsimp only
      split
      · apply find_repeat_filter_ne
        intro h
        exact hn.1 (h ▸ List.mem_map.2 ⟨y, hy, rfl⟩)
      · rfl
    rw [hfl]
    have hrep : v.sched.repeats.filter (fun r => !roundIn xs r) = s.sched.repeats.filter (fun r => !roundIn (x :: xs) r) := by
      rw [hv]
      dsimp only
      cases hr : x.round with
      | false => simp [roundIn, hr]
      | true =>
        simp only [if_true, List.filter_filter]
        apply List.filter_congr
        intro r _
        simp [roundIn, hr, Bool.and_comm, bne, Bool.beq_comm]
    rw [hrep, hv]
    simp [List.append_assoc]

/-- Repetitions ended with their last round figures at a moment, in the order given. -/
theorem endRepeats_eq (c : ResultCode) (w : Word) (l : List RepeatEntry) (s : State) :
    endRepeats c w l s = { s with
      sched := { s.sched with repeats := s.sched.repeats.filter (fun r => !l.any (fun x => x.index == r.index)) }
      results := { s.results with queue := s.results.queue ++ l.map (fun r => repeatDone r c w) } } := by
  induction l generalizing s with
  | nil => simp [endRepeats]
  | cons r rs ih =>
    simp only [endRepeats]
    rw [ih]
    have hr : (s.endRepeat r c r.figures w).sched.repeats.filter (fun y => !rs.any (fun x => x.index == y.index))
        = s.sched.repeats.filter (fun y => !(r :: rs).any (fun x => x.index == y.index)) := by
      show (s.sched.repeats.filter _).filter _ = _
      rw [List.filter_filter]
      apply List.filter_congr
      intro y _
      rw [List.any_cons, Bool.not_or, Bool.and_comm, bne, show (y.index == r.index) = (r.index == y.index) from Bool.beq_comm]
    rw [hr]
    simp [State.endRepeat, State.handDone, State.setQueue, State.setRepeats, State.setSched, State.setResults,
      repeatDone, RepeatEntry.figures]

/-! ### A trunk whose entries and repetitions all end (R102, R104, R116, R117) -/

/-- An element of a list with one put in is that one or one of the list. -/
theorem mem_insertBefore {α : Type} (f : α → α → Bool) (x z : α) (l : List α) :
    z ∈ insertBefore f x l ↔ z = x ∨ z ∈ l := by
  induction l with
  | nil => simp [insertBefore]
  | cons y ys ih =>
    simp only [insertBefore]
    split
    · simp [ih]; tauto
    · simp

/-- Ordering a list keeps its elements. -/
theorem mem_orderBy {α : Type} (f : α → α → Bool) (z : α) (l : List α) : z ∈ orderBy f l ↔ z ∈ l := by
  induction l with
  | nil => simp [orderBy]
  | cons x xs ih => simp [orderBy, mem_insertBefore, ih]

/-- One put in keeps a list in ascending index. -/
theorem insertBefore_ascending (x : RepeatEntry) (l : List RepeatEntry)
    (h : l.Pairwise (fun x y => x.index < y.index)) (hn : ∀ y ∈ l, y.index ≠ x.index) :
    (insertBefore (fun x y => decide (x.index < y.index)) x l).Pairwise (fun x y => x.index < y.index) := by
  induction l with
  | nil => simp [insertBefore]
  | cons y ys ih =>
    rw [List.pairwise_cons] at h
    simp only [insertBefore]
    split
    · rename_i hlt
      rw [List.pairwise_cons]
      refine ⟨?_, ih h.2 (fun z hz => hn z (by simp [hz]))⟩
      intro z hz
      rw [mem_insertBefore] at hz
      rcases hz with hz | hz
      · subst hz; exact of_decide_eq_true hlt
      · exact h.1 z hz
    · rename_i hlt
      have hlt' : ¬ y.index < x.index := fun h => hlt (decide_eq_true h)
      have hne := hn y (by simp)
      rw [List.pairwise_cons]
      refine ⟨?_, List.pairwise_cons.2 h⟩
      intro z hz
      rcases List.mem_cons.1 hz with hz | hz
      · subst hz; omega
      · have := h.1 z hz; omega

/-- Repeat entries of distinct indices, ordered by index, ascend. -/
theorem orderBy_ascending (l : List RepeatEntry) (hn : (l.map RepeatEntry.index).Nodup) :
    (orderBy (fun (x y : RepeatEntry) => decide (x.index < y.index)) l).Pairwise (fun x y => x.index < y.index) := by
  induction l with
  | nil => simp [orderBy]
  | cons x xs ih =>
    rw [List.map_cons, List.nodup_cons] at hn
    simp only [orderBy]
    apply insertBefore_ascending _ _ (ih hn.2)
    intro y hy h
    rw [mem_orderBy] at hy
    exact hn.1 (h ▸ List.mem_map.2 ⟨y, hy, rfl⟩)

/-- A trunk's list emptied, its armed entry withdrawn. -/
theorem withdraw_setList (s : State) (t : Trunk) :
    (s.withdraw t).setList t [] = { s with
      engines := (s.withdraw t).engines, sched := { s.sched with lists := s.sched.lists.set t [] } } := by
  unfold State.withdraw
  split
  · rfl
  · show ({ s with
      engines := _, sched := { s.sched with lists := (s.sched.lists.set t _).set t [] } } : State) = _
    rw [show ∀ l : List Entry, (s.sched.lists.set t l).set t [] = s.sched.lists.set t [] from ?_]
    intro l
    fin_cases t <;> rfl

/-- Every entry of a trunk and every repetition that is left end with an uncounted outcome at a moment. -/
theorem finishTrunk_uncounted (s : State) (t : Trunk) (c : ResultCode) (hc : c.endsRound = false) (w : Word)
    (hd : DistinctOn s t) :
    ∃ left : List RepeatEntry, LeftOver s.sched.repeats t (s.list t) left
      ∧ s.finishTrunk t c w = { s with
          engines := (s.withdraw t).engines
          sched := { s.sched with lists := s.sched.lists.set t [], repeats := tableAfter s.sched.repeats t (s.list t) }
          results :=
            { s.results with queue := s.results.queue ++ trunkEnds s.sched.repeats (s.list t) left c w } } := by
  unfold State.finishTrunk
  dsimp only
  rw [withdraw_setList, handOnAll_uncounted c hc w _ _ hd.1, endRepeats_eq]
  dsimp only [State.repeatsOf]
  have hnb : ((s.sched.repeats.filter (fun r => !roundIn (s.list t) r)).map RepeatEntry.index).Nodup :=
    List.Nodup.sublist (List.Sublist.map _ List.filter_sublist) hd.2
  generalize hleft : orderBy (fun (x y : RepeatEntry) => decide (x.index < y.index))
    ((s.sched.repeats.filter (fun r => !roundIn (s.list t) r)).filter (fun r => r.copy.trunk == t)) = left
  have hmem : ∀ r, r ∈ left ↔ r ∈ s.sched.repeats ∧ r.copy.trunk = t ∧ roundIn (s.list t) r = false := by
    intro r
    rw [← hleft, mem_orderBy, List.mem_filter, List.mem_filter]
    simp; tauto
  refine ⟨left, ⟨?_, hmem⟩, ?_⟩
  · rw [← hleft]
    exact orderBy_ascending _ (List.Nodup.sublist (List.Sublist.map _ List.filter_sublist) hnb)
  · have h1 : (s.sched.repeats.filter (fun r => !roundIn (s.list t) r)).filter (fun r => !left.any (fun x => x.index == r.index))
        = tableAfter s.sched.repeats t (s.list t) := by
      unfold tableAfter
      rw [List.filter_filter]
      apply List.filter_congr
      intro r hr
      cases hrs : roundIn (s.list t) r with
      | true => simp
      | false =>
        simp only [Bool.not_false, Bool.and_true]
        rw [Bool.eq_iff_iff, Bool.not_eq_true', List.any_eq_false, bne_iff_ne]
        constructor
        · intro h ht
          exact h r ((hmem r).2 ⟨hr, ht, hrs⟩) (by simp)
        · intro h x hx hxi
          obtain ⟨h2, h3, _⟩ := (hmem x).1 hx
          have : x = r := List.inj_on_of_nodup_map hd.2 h2 hr (by simpa using hxi)
          exact h (this ▸ h3)
    rw [h1]
    simp [trunkEnds, List.append_assoc]

/-- The trunk-off processing of a trunk (R102, R116). -/
theorem trunkOffProcessing_eq (s : State) (t : Trunk) (hd : DistinctOn s t) :
    ∃ left : List RepeatEntry, LeftOver s.sched.repeats t (s.list t) left
      ∧ s.trunkOffProcessing t = { s with
          engines := (s.withdraw t).engines
          sched :=
            { s.sched with
              lists := s.sched.lists.set t [], repeats := tableAfter s.sched.repeats t (s.list t)
              offDone := s.sched.offDone.set t true }
          results :=
            { s.results with
              queue := s.results.queue ++ trunkEnds s.sched.repeats (s.list t) left .trunkOff s.now } } := by
  obtain ⟨left, hl, he⟩ := finishTrunk_uncounted (s.setOffDone t true) t .trunkOff rfl s.now hd
  have hw : ((s.setOffDone t true).withdraw t).engines = (s.withdraw t).engines := by
    unfold State.withdraw
    rw [show (s.setOffDone t true).engine t = s.engine t from rfl]
    split <;> rfl
  refine ⟨left, hl, ?_⟩
  rw [hw] at he
  exact he

/-- A trunk-off processing that STANDBY kept back is made once; a trunk that is owed none stays (log 33). -/
theorem offIfOwed_cases (s : State) (t : Trunk) :
    (s.sched.offOwed.get t = true ∧ s.offIfOwed t = (s.setOffOwed t false).trunkOffProcessing t)
      ∨ (s.sched.offOwed.get t = false ∧ s.offIfOwed t = s) := by
  unfold State.offIfOwed
  cases h : s.sched.offOwed.get t with
  | true => exact .inl ⟨rfl, rfl⟩
  | false => exact .inr ⟨rfl, rfl⟩

/-! ### The order at STOP from STANDBY (R97, R104; log 21) -/

/-- Which entries of a list an entry stands at or behind: itself and those ahead of it, and none behind it. -/
theorem standsBehind_split {a b : List Entry} {m : Entry} (hn : ((a ++ m :: b).map Entry.index).Nodup) (e : Entry) :
    (e ∈ a → standsBehind (a ++ m :: b) m e = true) ∧ standsBehind (a ++ m :: b) m m = true
      ∧ (e ∈ b → standsBehind (a ++ m :: b) m e = false) := by
  induction a with
  | nil =>
    rw [List.nil_append, List.map_cons, List.nodup_cons] at hn
    refine ⟨(fun h => nomatch h), by simp [standsBehind], fun he => ?_⟩
    have hne : (m.index != e.index) = true := bne_iff_ne.2 (fun h => hn.1 (h ▸ List.mem_map.2 ⟨e, he, rfl⟩))
    unfold standsBehind
    rw [List.nil_append, List.dropWhile_cons, if_pos hne, List.any_eq_false]
    intro x hx h
    exact hn.1 (List.mem_map.2 ⟨x, (List.dropWhile_sublist _).subset hx, by simpa using h⟩)
  | cons y a ih =>
    rw [List.cons_append, List.map_cons, List.nodup_cons] at hn
    have ih := ih hn.2
    have step : ∀ x ∈ a ++ m :: b, standsBehind (y :: (a ++ m :: b)) m x = standsBehind (a ++ m :: b) m x := by
      intro x hx
      have hne : (y.index != x.index) = true := bne_iff_ne.2 (fun h => hn.1 (h ▸ List.mem_map.2 ⟨x, hx, rfl⟩))
      unfold standsBehind
      rw [List.dropWhile_cons, if_pos hne]
    rw [List.cons_append]
    refine ⟨fun he => ?_, ?_, fun he => ?_⟩
    · rcases List.mem_cons.1 he with he | he
      · subst he
        simp [standsBehind]
      · rw [step e (by simp [he])]
        exact ih.1 he
    · rw [step m (by simp)]
      exact ih.2.1
    · rw [step e (by simp [he])]
      exact ih.2.2 he

/-- Handing an entry on leaves the lists. -/
theorem handOn_lists (s : State) (e : Entry) (c : ResultCode) (w : Word) : (s.handOn e c w).sched.lists = s.sched.lists := by
  unfold State.handOn State.roundEnded
  dsimp only
  repeat' split
  all_goals rfl

/-- An entry that finishes leaves its trunk's list; the other lists stay. -/
theorem finishEntry_list (s : State) (t o : Trunk) (e : Entry) (c : ResultCode) (w : Word) :
    (s.finishEntry t e c w).list o = if o = t then (s.list t).filter (fun x => x.index != e.index) else s.list o := by
  have h : (s.finishEntry t e c w).list o = (s.removeEntry t e.index).list o :=
    congrArg (fun l : Four (List Entry) => l.get o) (handOn_lists (s.removeEntry t e.index) e c w)
  rw [h]
  unfold State.removeEntry
  dsimp only
  have hset : (s.setList t ((s.list t).filter (fun x => x.index != e.index))).list o
      = if o = t then (s.list t).filter (fun x => x.index != e.index) else s.list o := by
    simp [State.setList, State.list, get_set]
  split
  · rw [list_setEngine, hset]
  · exact hset

/-- Of an order that is followed at STOP, each trunk loses its own part. -/
theorem finishAtStop_list (l : List Marked) (s : State) (o : Trunk) :
    (finishAtStop l s).list o = (s.list o).filter (fun x => !(partOf l o).any (fun m => m.index == x.index)) := by
  induction l generalizing s with
  | nil => simp [finishAtStop, partOf]
  | cons m ms ih =>
    simp only [finishAtStop]
    rw [ih, finishEntry_list]
    unfold partOf
    rw [List.filter_cons]
    by_cases h : o = m.1
    · subst h
      simp only [if_true, beq_self_eq_true, List.map_cons, List.any_cons, List.filter_filter]
      apply List.filter_congr
      intro x _
      rw [Bool.not_or, Bool.and_comm, bne, show (x.index == m.2.index) = (m.2.index == x.index) from Bool.beq_comm]
    · have hm : (m.1 == o) = false := beq_eq_false_iff_ne.2 (fun h2 => h h2.symm)
      simp [h, hm]

end Sys2Proof.Laws
end

