-- ==== Sys2Proof/Laws/Header.lean ====
section
/-! SUPPORT. What the checks of a header answer: the least offset whose field fails (R51). -/

namespace Sys2Proof.Laws

open Sys2Proof.Machine Sys2Proof.Safety

/-- Checks that pass one by one exactly when their fields are valid. -/
abbrev ChecksFields : List (Nat × Bool) → List (Nat × Prop) → Prop :=
  List.Forall₂ (fun c f => c.1 = f.1 ∧ (c.2 = true ↔ f.2))

/-- Such checks have the offsets of their fields. -/
theorem checksFields_offsets {checks : List (Nat × Bool)} {fields : List (Nat × Prop)} (h : ChecksFields checks fields) :
    checks.map Prod.fst = fields.map Prod.fst := by
  induction h with
  | nil => rfl
  | cons hc _ ih => rw [List.map_cons, List.map_cons, hc.1, ih]

/-- Checks and fields put together. -/
theorem checksFields_append {a b : List (Nat × Bool)} {x y : List (Nat × Prop)} (h : ChecksFields a x)
    (k : ChecksFields b y) : ChecksFields (a ++ b) (x ++ y) := by
  induction h with
  | nil => exact k
  | cons hc _ ih => exact .cons hc ih

/-- No check fails exactly when every field is valid. -/
theorem firstBad_none {checks : List (Nat × Bool)} {fields : List (Nat × Prop)} (h : ChecksFields checks fields) :
    firstBad checks = none ↔ ∀ f ∈ fields, f.2 := by
  induction h with
  | nil => simp [firstBad]
  | @cons c f cs fs hc _ ih =>
    unfold firstBad at *
    rw [List.find?_cons, List.forall_mem_cons, ← hc.2]
    cases c.2 with
    | false => simp
    | true => simpa using ih

/-- A check that fails first is that of the least offset whose field is not valid. -/
theorem firstBad_some {checks : List (Nat × Bool)} {fields : List (Nat × Prop)} (h : ChecksFields checks fields)
    (hp : (checks.map Prod.fst).Pairwise (fun x y => x < y)) (o : Nat) :
    firstBad checks = some o ↔ (∃ f ∈ fields, f.1 = o ∧ ¬ f.2) ∧ ∀ f ∈ fields, f.1 < o → f.2 := by
  induction h with
  | nil => simp [firstBad]
  | @cons c f cs fs hc hs ih =>
    rw [List.map_cons, List.pairwise_cons] at hp
    have ih := ih hp.2
    have hlt : ∀ g ∈ fs, f.1 < g.1 := by
      intro g hg
      rw [← hc.1]
      exact hp.1 _ (checksFields_offsets hs ▸ List.mem_map_of_mem hg)
    unfold firstBad at *
    rw [List.find?_cons]
    cases hv : c.2 with
    | false =>
      have hf : ¬ f.2 := fun h2 => by simp [hc.2.2 h2] at hv
      simp only [Bool.not_false, Option.map_some, Option.some.injEq, hc.1]
      constructor
      · rintro rfl
        refine ⟨⟨f, List.mem_cons_self .., rfl, hf⟩, fun g hg hlt' => ?_⟩
        rcases List.mem_cons.1 hg with hg | hg
        · subst hg
          exact absurd hlt' (Nat.lt_irrefl _)
        · exact absurd (hlt g hg) (by omega)
      · rintro ⟨⟨g, hg, hgo, hgf⟩, hall⟩
        rcases List.mem_cons.1 hg with hg | hg
        · subst hg
          exact hgo
        · exact absurd (hall f (List.mem_cons_self ..) (hgo ▸ hlt g hg)) hf
    | true =>
      have hf : f.2 := hc.2.1 hv
      simp only [Bool.not_true]
      rw [ih]
      constructor
      · rintro ⟨⟨g, hg, hgo, hgf⟩, hall⟩
        refine ⟨⟨g, List.mem_cons_of_mem _ hg, hgo, hgf⟩, fun k hk hlt' => ?_⟩
        rcases List.mem_cons.1 hk with hk | hk
        · exact hk ▸ hf
        · exact hall k hk hlt'
      · rintro ⟨⟨g, hg, hgo, hgf⟩, hall⟩
        refine ⟨?_, fun k hk => hall k (List.mem_cons_of_mem _ hk)⟩
        rcases List.mem_cons.1 hg with hg | hg
        · exact absurd (hg ▸ hf) hgf
        · exact ⟨g, hg, hgo, hgf⟩

/-- Checks in ascending order of their offsets answer for their fields. -/
theorem answersFirstBad {checks : List (Nat × Bool)} {fields : List (Nat × Prop)} (h : ChecksFields checks fields)
    (hp : (checks.map Prod.fst).Pairwise (fun x y => x < y)) : AnswersFirstBad checks fields :=
  ⟨hp, firstBad_none h, firstBad_some h hp⟩

end Sys2Proof.Laws
end

