-- ==== Sys2Proof/Laws/Memory.lean ====
section
/-! SUPPORT. System memory: what a read answers after a write, and that every operation keeps the canonical form. -/

namespace Sys2Proof.Laws

open Sys2Proof.Machine

/-! ### Reading after writing -/

theorem read_consUnlessDefault (a b : Nat) (v : Byte) (m : Memory)
    (hm : a = b → v = Config.unlistedByte → Memory.read m a = Config.unlistedByte) :
    Memory.read (Memory.consUnlessDefault b v m) a = if a = b then v else Memory.read m a := by
  unfold Memory.consUnlessDefault
  by_cases hv : v = Config.unlistedByte <;> by_cases hab : a = b <;> simp_all [Memory.read]

/-- An address below every listed one reads as unlisted. -/
theorem read_of_lt_all (m : Memory) (a : Nat) (h : ∀ c ∈ m, a < c.1) : Memory.read m a = Config.unlistedByte := by
  induction m with
  | nil => rfl
  | cons c m ih =>
    have hc := h c (by simp)
    have : a ≠ c.1 := by omega
    obtain ⟨b, v⟩ := c
    simp only [Memory.read]
    rw [if_neg this]
    exact ih (fun c hc => h c (by simp [hc]))

/-- One read after one write in canonical memory. -/
theorem read_write (m : Memory) (hm : Memory.wf m) (a b : Nat) (v : Byte) :
    Memory.read (Memory.write m b v) a = if a = b then v else Memory.read m a := by
  induction m with
  | nil =>
    simp only [Memory.write]
    rw [read_consUnlessDefault _ _ _ _ (fun _ _ => rfl)]
  | cons c m ih =>
    obtain ⟨k, w⟩ := c
    obtain ⟨hp, hv⟩ := hm
    rw [List.pairwise_cons] at hp
    have hwf : Memory.wf m := ⟨hp.2, fun c hc => hv c (by simp [hc])⟩
    have hlow : ∀ x, x ≤ k → Memory.read m x = Config.unlistedByte := fun x hx =>
      read_of_lt_all m x (fun c hc => by have := hp.1 c hc; simp only at this; omega)
    simp only [Memory.write]
    split
    · rename_i hlt
      rw [read_consUnlessDefault]
      intro hab _
      have hne : a ≠ k := by omega
      simp only [Memory.read, if_neg hne]
      exact hlow a (by omega)
    · split
      · rename_i hbk
        rw [read_consUnlessDefault _ _ _ _ (fun hab _ => hlow a (by omega))]
        subst hbk
        by_cases hab : a = b
        · simp [hab]
        · simp [Memory.read, hab]
      · rename_i h1 h2
        simp only [Memory.read, ih hwf]
        by_cases hak : a = k
        · have : a ≠ b := by omega
          simp [hak]
          intro hkb; omega
        · simp [hak]

/-! ### The canonical form is kept -/

theorem write_mem (m : Memory) (b : Nat) (v : Byte) (c : Host.Cell) (h : c ∈ Memory.write m b v) :
    c ∈ m ∨ (c = (b, v) ∧ v ≠ Config.unlistedByte) := by
  induction m with
  | nil =>
    simp only [Memory.write, Memory.consUnlessDefault] at h
    split at h <;> simp_all
  | cons k m ih =>
    obtain ⟨k, w⟩ := k
    simp only [Memory.write, Memory.consUnlessDefault] at h
    split at h
    · split at h <;> simp_all
      rcases h with h | h <;> simp_all
    · split at h
      · split at h <;> simp_all
        rcases h with h | h <;> simp_all
      · simp only [List.mem_cons] at h ⊢
        rcases h with h | h
        · simp [h]
        · rcases ih h with h | h
          · simp [h]
          · simp [h]

theorem wf_write (m : Memory) (hm : Memory.wf m) (b : Nat) (hb : b < 4294967296) (v : Byte) :
    Memory.wf (Memory.write m b v) := by
  refine ⟨?_, fun c hc => ?_⟩
  · induction m with
    | nil =>
      simp only [Memory.write, Memory.consUnlessDefault]
      split <;> simp
    | cons k m ih =>
      obtain ⟨k, w⟩ := k
      obtain ⟨hp, hv⟩ := hm
      have hp' := hp
      rw [List.pairwise_cons] at hp
      have hwf : Memory.wf m := ⟨hp.2, fun c hc => hv c (by simp [hc])⟩
      simp only [Memory.write, Memory.consUnlessDefault]
      split
      · rename_i hlt
        split
        · exact hp'
        · rw [List.pairwise_cons]
          refine ⟨fun c hc => ?_, hp'⟩
          rcases List.mem_cons.mp hc with h | h
          · subst h; exact hlt
          · have := hp.1 c h; simp only at this ⊢; omega
      · split
        · rename_i hbk
          split
          · exact hp.2
          · rw [List.pairwise_cons]
            refine ⟨fun c hc => ?_, hp.2⟩
            have := hp.1 c hc; simp only at this ⊢; omega
        · rename_i h1 h2
          rw [List.pairwise_cons]
          refine ⟨fun c hc => ?_, ih hwf⟩
          rcases write_mem m b v c hc with h | h
          · exact hp.1 c h
          · rw [h.1]; simp only; omega
  · rcases write_mem m b v c hc with h | h
    · exact hm.2 c h
    · rw [h.1]; exact ⟨h.2, hb⟩

theorem wf_writeBytes (bs : List Byte) (m : Memory) (hm : Memory.wf m) (a : Word) :
    Memory.wf (Memory.writeBytes m a bs) := by
  induction bs generalizing m a with
  | nil => exact hm
  | cons v vs ih => exact ih _ (wf_write m hm _ a.isLt v) _

theorem wf_writeBytesPerhaps (count : Nat) (bs : List Byte) (m : Memory) (hm : Memory.wf m) (a : Word) (k : Nat) :
    Memory.wf (Memory.writeBytesPerhaps count m a k bs) := by
  induction bs generalizing m a k with
  | nil => exact hm
  | cons v vs ih =>
    simp only [Memory.writeBytesPerhaps]
    split
    · exact ih _ (wf_write m hm _ a.isLt v) _ _
    · exact ih _ hm _ _

theorem wf_landWrite (s : State) (a : Access) (h : Memory.wf s.memory) : Memory.wf (s.landWrite a).memory := by
  unfold State.landWrite
  split
  · exact h
  · exact wf_writeBytes _ _ h _
  · exact wf_writeBytes _ _ h _

theorem wf_landPerhaps (s : State) (a : Access) (h : Memory.wf s.memory) : Memory.wf (s.landPerhaps a).memory := by
  unfold State.landPerhaps
  split
  · exact h
  · exact wf_writeBytesPerhaps _ _ _ h _ _
  · exact wf_writeBytesPerhaps _ _ _ h _ _

/-- Reset memory lists nothing. -/
theorem wf_reset : Memory.wf State.reset.memory := ⟨List.Pairwise.nil, fun c hc => by cases hc⟩

/-! ### Bytes outside a write -/

/-- An address that no byte of a write covers. -/
def Outside (a : Word) (n : Nat) (x : Word) : Prop := n ≤ (x - a).toNat

theorem read_writeBytes_outside (bs : List Byte) (m : Memory) (hm : Memory.wf m) (a x : Word)
    (h : Outside a bs.length x) (hn : bs.length < 4294967296) :
    Memory.read (Memory.writeBytes m a bs) x.toNat = Memory.read m x.toNat := by
  induction bs generalizing m a with
  | nil => rfl
  | cons v vs ih =>
    simp only [Outside, List.length_cons] at h hn
    have hxa : x.toNat ≠ a.toNat := by
      intro he
      have : x = a := BitVec.eq_of_toNat_eq he
      subst this
      simp at h
    simp only [Memory.writeBytes]
    rw [ih _ (wf_write m hm _ a.isLt v) _ _ (by omega)]
    · rw [read_write m hm]; simp [hxa]
    · simp only [Outside]
      bv_omega

end Sys2Proof.Laws
end

