-- ==== Sys2Proof/Tests/Slice0.lean ====
section
/-! SUPPORT. Tests: commands that are not well formed, the manual's worked examples, one step of some commands, and for
every statement with hypotheses a state and operands that meet them, clause by clause at the ends of the ranges. -/

namespace Sys2Proof.Tests

open Sys2Proof.Machine Sys2Proof.Safety

/-! ### Well-formedness -/

theorem test_unknown_code_refused :
    (Instr.unknownCommand 1#4).wellFormed = false ∧ (Instr.unknownCommand 7#4).wellFormed = false
      ∧ (Instr.unknownCommand 0#4).wellFormed = true ∧ (Instr.unknownCommand 8#4).wellFormed = true := by decide

theorem test_register_offset_refused :
    (Instr.registerWrite 0x20 0).wellFormed = false ∧ (Instr.registerWrite 0x05 0).wellFormed = false
      ∧ (Instr.registerWrite 0x1C 0).wellFormed = true := by decide

theorem test_index_refused :
    (Instr.restEnd 1024).wellFormed = false ∧ (Instr.expiry 1024).wellFormed = false
      ∧ (Instr.dueTime 1024).wellFormed = false ∧ (Instr.restEnd 1023).wellFormed = true := by decide

/-! ### Small states -/

/-- Reset, in another session state, with N = 16 and F = 8. -/
def inState (x : SessionState) : State :=
  { State.reset with session := { Session.reset with state := x, n := 16, f := 8 } }

/-- A RUNNING session. -/
def running : State := inState .running

/-- Trunk 0's engine replaced. -/
def withEngine (s : State) (e : Engine) : State := { s with engines := { s.engines with t0 := e } }

/-- Trunk 0's list replaced. -/
def withList (s : State) (l : List Entry) : State := { s with sched := { s.sched with lists := ⟨l, [], [], []⟩ } }

/-- An ACTIVE engine in a state. -/
def engineIn (x : EngineState) : Engine := { Engine.reset with mode := .active, state := x }

/-- A unicast copy of a length. -/
def copyOf (cls : FrameClass) (length : Nat) : SendCopy :=
  { trunk := 0, cls := cls, dest := 5, channel := 3, length := length, retries := 1, replyWanted := true, expiry := none
    payload := List.replicate length 0x10#8 }

/-- An entry that waits. -/
def entryOf (i : Nat) (cls : FrameClass) : Entry := newEntry i (copyOf cls 0) false 0 0

/-- `k` entries of indices 0 to k-1. -/
def entries (k : Nat) : List Entry := (List.range k).map (fun i => entryOf i .normal)

/-- A repeat entry of trunk 0. -/
def repeatOf (i : Nat) (round : RoundState) : RepeatEntry :=
  { index := i, copy := copyOf .normal 0, period := 10, nextDue := 0, round := round, count := 0, overruns := 0
    last := none, attempts := 0, losses := 0, endRequest := false }

/-- The entry of a round. -/
def roundOf (i : Nat) (c : Condition) : Entry := { newEntry i (copyOf .normal 0) true 0 0 with condition := c }

/-- Trunk 0's list and the repeat table replaced. -/
def withTable (s : State) (l : List Entry) (r : List RepeatEntry) : State :=
  { s with sched := { s.sched with lists := ⟨l, [], [], []⟩, repeats := r } }

/-- An entry marked EXPIRED in STANDBY. -/
def markedEntry (i : Nat) : Entry := { entryOf i .normal with endMark := .expired, stamp := some 3 }

/-- A frame of the delivery queue. -/
def frameOf (slot : Option Nat) : QueuedFrame :=
  { trunk := 0, source := 12, dest := 5, channel := 3, cls := .normal, length := 0, payload := [], stamp := 0
    broadcast := false, group := false, heldStandby := false, clash := false, slot := slot }

/-- A sweep with an index in hand. -/
def sweepAt (i : Nat) (g : SweepStage) (cut : Bool) : Sweep := { start := 0, index := i, stage := g, cut := cut }

/-- A state with a sweep and one access of it on the bus, `k` us after its issue. -/
def sweeping (s : State) (w : Sweep) (a : Access) (k : Nat) : State :=
  { s with
    sweeper := { s.sweeper with sweep := some w }
    port := { unit := some { kind := .sweeper, access := a, timer := k, rest := [], data := [] }, abandoned := none } }

/-- A state with the last access of a unit on the bus. -/
def finishing (s : State) (kind : UnitKind) (a : Access) : State :=
  { s with
    port := { unit := some { kind := kind, access := a, timer := 1000, rest := [], data := [] }, abandoned := none } }

/-- The attempt of a frame of length 0, all of whose fields are 0, at a symbol. -/
def attemptAt (position : Nat) (replyWanted : Bool) : Attempt :=
  { index := 0, cls := .urgent, dest := 0, channel := 0, length := 0, replyWanted := replyWanted, payload := []
    source := 0, toggle := false, o1 := 0, o2 := 0, o3 := 0, check := 255, position := position }

/-! ### States whose held map is exact -/

/-- An entry alone in trunk 0's list, its held bit alone set. -/
def holdsOne (x : SessionState) (e : Entry) : State :=
  { inState x with
    sched := { Scheduler.reset with lists := ⟨[e], [], [], []⟩ }
    sweeper := { Sweeper.reset with held := BitVec.ofNat 1024 (2 ^ 3) } }

theorem test_held_bits (i : Nat) : (BitVec.ofNat 1024 (2 ^ 3)).getLsbD i = decide (3 = i) := by
  rw [BitVec.getLsbD_ofNat, Nat.testBit_two_pow]
  by_cases h : 3 = i
  · subst h; decide
  · simp [h]

/-- The places that the invariant counts, where one of them holds index 3: in each session state, by any entry. -/
theorem test_witness_held_map (x : SessionState) (e : Entry) (hi : e.index = 3) (hr : e.round = false) :
    HeldMapKept (holdsOne x e) := by
  refine ⟨⟨false, fun _ => rfl, (fun h => nomatch h), fun i => ?_⟩, fun t => ?_, ?_, trivial, ?_⟩
  · show holders (holdsOne x e) false i = ((BitVec.ofNat 1024 (2 ^ 3)).getLsbD i).toNat
    rw [test_held_bits]
    by_cases h : 3 = i
    · subst h
      simp [holders, holdsOne, inState, State.list, Four.get, State.reset, Scheduler.reset, Director.reset,
        ResultWriter.reset, hi, hr]
    · simp [holders, holdsOne, inState, State.list, Four.get, State.reset, Scheduler.reset, Director.reset,
        ResultWriter.reset, hi, h]
  · match t with
    | 0 => exact ⟨by simp [holdsOne, State.list, Four.get], fun y hy h => by
        cases List.mem_singleton.mp hy
        exact absurd h (by simp [hr])⟩
    | 1 => exact ⟨List.nodup_nil, fun y hy => nomatch hy⟩
    | 2 => exact ⟨List.nodup_nil, fun y hy => nomatch hy⟩
    | 3 => exact ⟨List.nodup_nil, fun y hy => nomatch hy⟩
  · exact ⟨by show (16 : Nat) ≤ 1024; decide, by show (8 : Nat) ≤ 1024; decide, by show (0 : Nat) < 1024; decide,
      fun w h => nomatch h⟩
  · exact ⟨fun _ => ⟨rfl, rfl⟩, fun h => absurd rfl h⟩

/-! ### The manual's worked examples -/

/-- The worked check octet of 01 section 1.4: octets 69, 51, 19, 16, 32 and check 68. -/
theorem test_worked_check_octet :
    octet1 .normal 5 = 69#8 ∧ octet2 12 true true = 51#8 ∧ octet3 2 3 = 19#8
      ∧ checkOctet [69#8, 51#8, 19#8, 0x10#8, 0x20#8] = 68#8 := by decide

theorem test_worked_frame_read_back :
    frameOfOctets [69#8, 51#8, 19#8, 0x10#8, 0x20#8, 68#8]
      = { cls := .normal, dest := 5, source := 12, toggle := true, replyWanted := true, length := 2, channel := 3
          payload := [0x10#8, 0x20#8], check := 68#8 } := by decide

/-- Hold times of 01 section 1.8 with H = 6: URGENT 6U, NORMAL 8U, BULK 10U, a NORMAL retry 12U. -/
theorem test_hold_times :
    holdUnits 6 .urgent false = 6 ∧ holdUnits 6 .normal false = 8 ∧ holdUnits 6 .bulk false = 10
      ∧ holdUnits 6 .normal true = 12 := by decide

/-- Symbols are taken most significant first; eight complete an octet. -/
theorem test_symbols_complete_octets :
    ([false, true, false, false, false, true, false, true].foldl Buffer.push (Buffer.cleared false)).octets = [69#8]
      := by decide

/-! ### One step -/

theorem test_ident_reads : State.reset.readRegister 0 = 0x4C540301#32 := by decide

theorem test_command_refused_in_unset :
    (match exec .pause State.reset with
    | .next t => t.regs.readBack == { code := 2#4, result := .refused, reason := .wrongState }
    | .fault _ => false
    | .refused _ => false) = true := by decide

theorem test_no_word_spells_a_command : State.reset.withFetchWord 16 0 = State.reset := rfl

theorem test_write_keeps_default_out :
    Memory.write (Memory.write [] 4 7#8) 4 0#8 = [] ∧ Memory.read (Memory.write [] 4 7#8) 4 = 7#8 := by decide

/-! ### Witnesses: the step, reset, commands -/

theorem test_witness_step_runs_front : ({ State.reset with pending := [.start] } : State).pending = .start :: [] := rfl

theorem test_witness_step_without_commands :
    ({ State.reset with outside := [(0, .pull 0)] } : State).outside = (0, .pull 0) :: []
      ∧ ({ State.reset with outside := [(0, .pull 0)] } : State).reachedEvent = none ∧ State.reset.reachedEvent = none
      ∧ State.reset.pending = [] ∧ State.reset.outside.head? = none ∧ State.reset.dueEvent = none
      ∧ ({ State.reset with
            engines := Four.all { Engine.reset with
              state := .idle, mode := .listen, level := .low, candidate := true, lowTime := 600 } } : State).reachedEvent
          = some (.leadMark 0)
      ∧ ({ State.reset with session := { Session.reset with window := some 0 } } : State).dueEvent = some .windowClose
      ∧ ({ State.reset with outside := [(1, .pull 0)] } : State).outside.head? = some (1, .pull 0)
      ∧ ({ State.reset with outside := [(1, .pull 0)] } : State).dueEvent = none := by decide

/-- A tick outside the session's time, within a millisecond, and at its end with the sweep timer stopped and running; an
engine that is OFF and one that is not; with and without an input that waits. -/
theorem test_witness_tick :
    State.reset.session.timeRuns = false
      ∧ running.session.timeRuns = true ∧ running.session.micros ≠ 999
      ∧ ({ running.session with micros := 999 } : Session).timeRuns = true
      ∧ ({ running.session with micros := 999 } : Session).micros = 999
      ∧ running.sweeper.timerRuns = false ∧ (startedSweeper running.sweeper).timerRuns = true
      ∧ running.outside = [] ∧ ({ running with outside := [(1, .pull 0)] } : State).outside = (1, .pull 0) :: []
      ∧ (running.engine 0).state = .off ∧ ((withEngine running (engineIn .idle)).engine 0).state ≠ .off := by decide

/-- An edge on trunk 1 alone: the wire has been low for the filter time in force, and for one microsecond less. -/
def edgeOnOne (micros : Nat) : State :=
  { running with
    engines :=
      { Four.all Engine.reset with
        t1 :=
          { engineIn .idle with
            timing := { unit := 10, filter := 4, hold := 5 }, stationsLow := true, rawTime := micros } } }

/-- An edge reached, with none on a lower trunk, and one not yet reached; the edge has the turn. -/
theorem test_witness_edge_due :
    EdgeReached ((edgeOnOne 4).engine 1) ∧ ¬ EdgeReached ((edgeOnOne 4).engine 0)
      ∧ ¬ EdgeReached ((edgeOnOne 3).engine 1) ∧ (edgeOnOne 4).dueEvent = some (.recognisedEdge 1 .low)
      ∧ (edgeOnOne 3).dueEvent = none := by
  unfold EdgeReached
  decide

/-- Other moments, each the event whose turn it is: hold expiry at the hold time, a rest, an expiry, a due time, the
window's close, the sweep timer, the timeout and the end of an abandoned access. -/
theorem test_witness_moments :
    (withList (withEngine running
        { engineIn .holding with
          armed := some { index := 0, cls := .normal, retry := false, holdUnits := 8 }, holdClock := 800 })
        [entryOf 0 .normal]).dueEvent = some (.holdExpiry 0)
      ∧ (withList running [{ entryOf 0 .normal with condition := .resting 0 0 }]).dueEvent = some (.restEnd 0)
      ∧ (withList running [newEntry 0 { copyOf .normal 0 with expiry := some 0 } false 0 0]).dueEvent = some (.expiry 0)
      ∧ ({ running with sched := { Scheduler.reset with repeats := [repeatOf 0 .between] } } : State).dueEvent
          = some (.dueTime 0)
      ∧ ({ running with session := { running.session with window := some 0 } } : State).dueEvent = some .windowClose
      ∧ ({ running with sweeper := { Sweeper.reset with timer := 1000, timerRuns := true } } : State).dueEvent
          = some .sweepTimerExpiry
      ∧ (finishing running .sweeper { role := .word0, addr := 0, op := .read 1 }).dueEvent = some .accessTimeout
      ∧ ({ running with
            port :=
              { unit := none
                abandoned := some { access := { role := .word0, addr := 0, op := .read 1 }, timer := 1000 } } }
          : State).dueEvent = some .abandonedAccessEnd := by decide

/-- Nothing on the bus; a read of a unit there; an abandoned read there. -/
theorem test_witness_power_on_reset (a : Access) (k : Nat) (h : a.op = .read k) :
    (∀ u : PortUnit, running.port.unit = some u → ∃ n, u.access.op = .read n)
      ∧ (∀ b : Abandoned, running.port.abandoned = some b → ∃ n, b.access.op = .read n)
      ∧ (∀ u : PortUnit, (finishing running .sweeper a).port.unit = some u → ∃ n, u.access.op = .read n)
      ∧ ∀ b : Abandoned, ({ unit := none, abandoned := some { access := a, timer := 0 } } : Port).abandoned = some b →
          ∃ n, b.access.op = .read n :=
  ⟨(fun _ hu => nomatch hu), (fun _ hb => nomatch hb), fun _ hu => ⟨k, Option.some.inj hu ▸ h⟩,
    fun _ hb => ⟨k, Option.some.inj hb ▸ h⟩⟩

theorem test_witness_reset_command :
    (finishing running .sweeper { role := .word0, addr := 0, op := .read 1 }).port.unit ≠ none
      ∧ running.port.unit = none := by decide

theorem test_witness_commands_refused :
    (0#4).toNat = 0 ∧ 8 ≤ (8#4).toNat ∧ 8 ≤ (15#4).toNat ∧ (inState .settling).session.state = .settling
      ∧ Command.start ≠ .reset ∧ State.reset.session.state ∉ acceptingStates .pause
      ∧ ({ State.reset with regs := { Registers.reset with areaBase := 255#32 } } : State).regs.areaBase.toNat % 256 ≠ 0
      := by decide

theorem test_witness_not_busy (x : SessionState) (h1 : x ≠ .settling) (h2 : x ≠ .stopping) : ¬ Busy (inState x) := by
  rintro (h | h | h | h | h)
  · exact h1 h
  · exact h2 h
  all_goals exact nomatch h

theorem test_witness_commands_accepted :
    (inState .unset).session.state = .unset ∧ (inState .unset).regs.areaBase.toNat % 256 = 0
      ∧ (0xFFFFFF00#32).toNat % 256 = 0 ∧ (inState .running).session.state = .running
      ∧ (inState .paused).session.state = .paused := by decide

theorem test_witness_stop_accepted :
    (inState .standby).session.state = .standby
      ∧ (withList running [{ entryOf 0 .normal with condition := .inFlight }]).inFlight 0 = true
      ∧ running.inFlight 1 = false ∧ running.sched.stopDone.get 1 = false := by decide

/-- Distinct indices with a trunk to stop, out of STANDBY. -/
theorem test_witness_stop_running :
    HeldMapKept (holdsOne .running (entryOf 3 .normal))
      ∧ (holdsOne .running (entryOf 3 .normal)).session.state = .running
      ∧ (holdsOne .running (entryOf 3 .normal)).inFlight 0 = false :=
  ⟨test_witness_held_map _ _ rfl rfl, by decide, by decide⟩

/-- STANDBY with a marked entry or an unmarked one: RESUME and STOP finish them. -/
theorem test_witness_kept_in_standby (e : Entry) (hi : e.index = 3) (hr : e.round = false) :
    HeldMapKept (holdsOne .standby e) ∧ (holdsOne .standby e).session.state = .standby
      ∧ ∀ o : Trunk, (holdsOne .standby e).sched.stopDone.get o = false :=
  ⟨test_witness_held_map _ _ hi hr, rfl, by intro o; match o with | 0 => rfl | 1 => rfl | 2 => rfl | 3 => rfl⟩

theorem test_witness_kept_entries :
    (markedEntry 3).index = 3 ∧ (markedEntry 3).round = false ∧ (markedEntry 3).stamp ≠ none
      ∧ (entryOf 3 .normal).stamp = none ∧ (∀ o : Trunk, (holdsOne .standby (markedEntry 3)).inFlight o = false)
      ∧ (holdsOne .standby (markedEntry 3)).marked = [(0, markedEntry 3)]
      ∧ unmarked (holdsOne .standby (entryOf 3 .normal)) 0 = [entryOf 3 .normal] := by decide

/-- An entry marked at device time `w`. -/
def markedAt (i : Nat) (w : Word) : Entry := { markedEntry i with stamp := some w }

/-- STANDBY at device time 9 with marked entries among unmarked ones: on trunk 0 against list order, on trunk 1 in it. -/
def mixedStandby : State :=
  { inState .standby with
    session := { (inState .standby).session with deviceTime := 9 }
    sched :=
      { Scheduler.reset with
        lists :=
          ⟨[entryOf 1 .normal, markedAt 2 5, entryOf 3 .normal, markedAt 4 3, entryOf 6 .normal],
            [markedAt 7 4, entryOf 5 .normal, markedAt 0 6], [], []⟩ } }

/-- At STOP the marked entries stand by their moments, each behind the unmarked ones ahead of it in its list. -/
theorem test_stop_order :
    mixedStandby.stopOrder
      = [(0, entryOf 1 .normal), (0, entryOf 3 .normal), (0, markedAt 4 3), (1, markedAt 7 4), (0, markedAt 2 5),
          (1, entryOf 5 .normal), (1, markedAt 0 6)] := by decide

/-- The clauses of the order at STOP: a marked entry behind an unmarked one, moments in list order and against it. -/
theorem test_witness_stop_order :
    AheadOf (mixedStandby.list 0) (entryOf 3 .normal) (markedAt 4 3) ∧ (entryOf 3 .normal).stamp = none
      ∧ (markedAt 4 3).stamp ≠ none ∧ entryOf 3 .normal ∈ partOf mixedStandby.stopOrder 0
      ∧ partOf mixedStandby.stopOrder 1 = mixedStandby.list 1 ∧ MomentsInListOrder mixedStandby 1
      ∧ ¬ MomentsInListOrder mixedStandby 0 := by
  refine ⟨⟨[entryOf 1 .normal, markedAt 2 5], [], [entryOf 6 .normal], rfl⟩, by decide, by decide, by decide, by decide,
    ?_, fun h => ?_⟩
  · refine List.Pairwise.cons (fun y hy v w hv hw => ?_) (List.Pairwise.cons (fun y _ v w hv _ => nomatch hv) ?_)
    · rcases List.mem_cons.mp hy with hy | hy
      · subst hy; exact nomatch hw
      · cases List.mem_singleton.mp hy
        cases hv
        cases hw
        decide
    · exact List.pairwise_singleton _ _
  · obtain ⟨_, h, _⟩ := List.pairwise_cons.mp h |>.imp id List.pairwise_cons.mp
    exact absurd (h (markedAt 4 3) (by decide) 5 3 rfl rfl) (by decide)

/-! ### Witnesses: register writes, sync, the sweeper -/

theorem test_witness_sweep_starts :
    running.session.state = .running ∧ running.session.resumeOwed = none ∧ running.sweeper.sweep = none
      ∧ 1 ≤ running.sweeper.period
      ∧ ({ Sweeper.reset with sweep := some (sweepAt 0 .word0 false) } : Sweeper).sweep ≠ none
      ∧ ({ Sweeper.reset with timer := 1000, timerRuns := true } : Sweeper).timerRuns = true
      ∧ ({ Sweeper.reset with timer := 1000 } : Sweeper).target ≤ 1000
      ∧ (inState .unset).session.state ≠ .running ∧ (inState .unset).session.state ≠ .paused
      ∧ ({ Session.reset with state := .running, resumeOwed := some 0 } : Session).resumeOwed ≠ none := by decide

theorem test_witness_irq :
    ({ Registers.reset with intEnable := 63#6 }).intEnable.getLsbD Cause.complete.bit = true
      ∧ ({ Registers.reset with intEnable := 63#6 }).intEnable.getLsbD Cause.wake.bit = true
      ∧ exec (.intCause 0) State.reset = .next (State.reset.writeIntCause 0)
      ∧ exec (.intEnable 0) State.reset = .next (State.reset.writeIntEnable 0)
      ∧ exec .powerOnReset State.reset = .next State.reset.powerOn
      ∧ exec .reset State.reset = .next State.reset.resetCommand := by
  refine ⟨by decide, by decide, rfl, rfl, rfl, rfl⟩

theorem test_witness_register_writes :
    (1#32).setWidth 4 = Command.start.code ∧ (0xFFFFFFF7#32).setWidth 4 = Command.reset.code
      ∧ ((0#32).setWidth 4 : BitVec 4).toNat = 0 ∧ 8 ≤ ((8#32).setWidth 4 : BitVec 4).toNat
      ∧ 8 ≤ ((15#32).setWidth 4 : BitVec 4).toNat := by decide

theorem test_witness_status_fields :
    ({ running with director := { Director.reset with queue := List.replicate 6 (frameOf none) } }
      : State).director.queue.length ≤ 6 := by decide

theorem test_witness_sync_window :
    running.sched.windowMode.get 0 = false
      ∧ ({ running with sched := { Scheduler.reset with windowMode := Four.all true } }
          : State).sched.windowMode.get 0 = true
      ∧ running.schedulerLive = true ∧ running.session.state ≠ .standby ∧ State.reset.schedulerLive = false
      ∧ (inState .standby).session.state = .standby ∧ (inState .standby).schedulerLive = true
      ∧ ((withEngine running (engineIn .idle)).engine 0).takesArming = true
      ∧ ({ Session.reset with window := some 0 } : Session).window = some 0 := by decide

theorem test_witness_sweep_order :
    (1 ≤ 1 ∧ 1 < 16 ∧ 0 < 1) ∧ (1 ≤ 1023 ∧ 1023 < 1024 ∧ 1022 < 1023) ∧ 15 + 1 < 17
      ∧ (sweepAt 3 .word0 true).cut = true ∧ (sweepAt 3 .word0 false).cut = false
      ∧ nextIndex 16 8 0 7 = some 8 ∧ nextIndex 16 8 3 2 = some 8 ∧ nextIndex 16 8 3 7 = some 0
      ∧ nextIndex 16 8 0 15 = none := by decide

/-- A word 0 read of index `i` on the bus, whose state byte and byte 1 are `v` and `c`. -/
def word0Of (s : State) (i : Nat) (v c : Byte) : State :=
  sweeping { s with memory := Memory.writeBytes [] (s.envelopeAddr i 0) [v, c] } (sweepAt i .word0 false)
    { role := .word0, addr := s.envelopeAddr i 0, op := .read 1 } 1000

theorem test_witness_word0_access (s : State) (i : Nat) (v c : Byte) :
    SweeperAccess (word0Of s i v c) (sweepAt i .word0 false)
      { role := .word0, addr := s.envelopeAddr i 0, op := .read 1 } := ⟨rfl, 1000, Nat.le_refl _, rfl⟩

/-- Every state byte that the two sides tell apart, with the cancel request clear and set. -/
theorem test_witness_word0_values :
    Memory.read (word0Of running 7 2 0).memory (running.envelopeAddr 7 0).toNat = 2#8
      ∧ Memory.read (word0Of running 7 1 1).memory (running.envelopeAddr 7 0).toNat = 1#8
      ∧ (Memory.read (word0Of running 7 1 1).memory (running.envelopeAddr 7 0 + 1).toNat).getLsbD 0 = true
      ∧ (Memory.read (word0Of running 7 1 0).memory (running.envelopeAddr 7 0 + 1).toNat).getLsbD 0 = false
      ∧ Memory.read (word0Of running 7 3 0).memory (running.envelopeAddr 7 0).toNat = 3#8
      ∧ Memory.read (word0Of running 8 2 1).memory (running.envelopeAddr 8 0).toNat = 2#8
      ∧ 7 < running.session.f ∧ running.session.f ≤ 8 ∧ (inState .paused).session.state = .paused := by decide

/-- A set of entry indices that holds 7, and one that does not hold 8. -/
theorem test_witness_held_index :
    (BitVec.ofNat 1024 128).getLsbD 7 = true ∧ running.sweeper.held.getLsbD 8 = false := by
  refine ⟨?_, ?_⟩
  · rw [BitVec.getLsbD_ofNat]; decide
  · exact BitVec.getLsbD_zero

theorem test_witness_word1 :
    SweeperAccess (sweeping running (sweepAt 8 .word1 false) { role := .word1, addr := 0x304, op := .read 1 } 1000)
        (sweepAt 8 .word1 false) { role := .word1, addr := 0x304, op := .read 1 }
      ∧ (0#8).toNat = 0 ∧ 16 ≤ (16#8).toNat ∧ (1#8).toNat ≠ 0 ∧ (15#8).toNat < 16
      ∧ Memory.read (Memory.write [] 0x304 15#8) (0x304#32).toNat = 15#8
      ∧ 32 ≤ (List.replicate 32 ({ index := 8, mask := 1 } : Offered)).length
      ∧ (List.replicate 31 ({ index := 8, mask := 1 } : Offered)).length < 32 := by
  refine ⟨⟨rfl, 1000, Nat.le_refl _, rfl⟩, ?_⟩
  decide

/-! ### Witnesses: send envelopes and claims -/

/-- A send envelope: trunk 0, NORMAL, destination 5, options `o`, period 10, with state byte `v`, byte 1 `c` and check
byte `k`. -/
def envelope (v c o k : Byte) : List Byte := [v, c, 0, 0, 0, 1, 5, 0, 0, 0, o, k, 10]

/-- The whole-envelope read of index 7 on the bus. -/
def envelopeOf (s : State) (bs : List Byte) : State :=
  sweeping { s with memory := Memory.writeBytes [] (s.envelopeAddr 7 0) bs } (sweepAt 7 .envelope false)
    { role := .envelope, addr := s.envelopeAddr 7 0, op := .read 16 } 1000

theorem test_witness_envelope_access (s : State) (bs : List Byte) :
    SweeperAccess (envelopeOf s bs) (sweepAt 7 .envelope false)
      { role := .envelope, addr := s.envelopeAddr 7 0, op := .read 16 } := ⟨rfl, 1000, Nat.le_refl _, rfl⟩

/-- The bytes that the read of `envelopeOf running bs` returns. -/
def readBack (bs : List Byte) : List Byte :=
  Memory.readBytes (envelopeOf running bs).memory (running.envelopeAddr 7 0) 64

/-- The state byte, the cancel request, PAUSED and another state, and the four tests in their order. -/
theorem test_witness_envelope_tests :
    (byteAt (readBack (envelope 3 0 0 0)) 0).toNat ≠ 1 ∧ (byteAt (readBack (envelope 1 1 0 0)) 0).toNat = 1
      ∧ (byteAt (readBack (envelope 1 1 0 0)) 1).getLsbD 0 = true
      ∧ (byteAt (readBack (envelope 1 0 0 0)) 1).getLsbD 0 = false
      ∧ (envelopeOf (inState .paused) (envelope 1 0 0 0)).session.state = .paused
      ∧ (byteAt (Memory.readBytes (envelopeOf (inState .paused) (envelope 1 0 0 0)).memory
          ((inState .paused).envelopeAddr 7 0) 64) 0).toNat = 1
      ∧ (envelopeOf running (envelope 1 0 0 0)).session.state ≠ .paused
      ∧ checkByte (readBack (envelope 1 0 0 0)) ≠ byteAt (readBack (envelope 1 0 0 0)) 11
      ∧ checkByte (readBack (envelope 1 0 8 6)) = byteAt (readBack (envelope 1 0 8 6)) 11
      ∧ (sendFields (readBack (envelope 1 0 8 6))).valid = false
      ∧ checkByte (readBack (envelope 1 0 2 12)) = byteAt (readBack (envelope 1 0 2 12)) 11
      ∧ (sendFields (readBack (envelope 1 0 2 12))).valid = true ∧ (readBack (envelope 1 0 2 12)).length = 64
      ∧ (sendFields (readBack (envelope 1 0 2 12))).dest = ({ Listen.reset with own := 5 } : Listen).own
      ∧ (sendFields (readBack (envelope 1 0 2 12))).dest ≠ (running.director.listen.get 0).own
      ∧ (running.engine 0).mode = .off ∧ ({ engineIn .idle with pendingOff := true } : Engine).pendingOff = true := by
  decide

theorem test_witness_envelope_room :
    (sendFields (readBack (envelope 1 0 2 12))).repeats = true
      ∧ (sendFields (readBack (envelope 1 0 0 14))).repeats = false
      ∧ checkByte (readBack (envelope 1 0 0 14)) = byteAt (readBack (envelope 1 0 0 14)) 11
      ∧ (sendFields (readBack (envelope 1 0 0 14))).valid = true
      ∧ ((withEngine running (engineIn .idle)).engine 0).mode ≠ .off ∧ (engineIn .idle).pendingOff = false
      ∧ running.sweeper.reservation = none
      ∧ ({ running with sched := { Scheduler.reset with offDone := Four.all true } } : State).sched.offDone.get 0 = true
      ∧ 8 ≤ (List.replicate 8 (repeatOf 0 .between)).length ∧ (List.replicate 7 (repeatOf 0 .between)).length < 8
      ∧ 16 ≤ (entries 16).length ∧ (entries 15).length < 16 := by decide

/-- The claim write of index 7 on the bus. -/
def claiming (s : State) (c : Claim) : State :=
  sweeping s (sweepAt 7 (.claim c) false) { role := .claim, addr := s.envelopeAddr 7 0, op := .byteWrite [3#8] } 1000

theorem test_witness_claim_access (s : State) (c : Claim) :
    SweeperAccess (claiming s c) (sweepAt 7 (.claim c) false)
      { role := .claim, addr := s.envelopeAddr 7 0, op := .byteWrite [3#8] } := ⟨rfl, 1000, Nat.le_refl _, rfl⟩

theorem test_witness_send_claim :
    (sweepAt 7 (.claim (.send (copyOf .normal 24))) false).stage = .claim (.send (copyOf .normal 24))
      ∧ running.sched.offDone.get 0 = false ∧ running.session.state ≠ .stopping
      ∧ (inState .stopping).session.state = .stopping ∧ (inState .stopping).sched.stopDone.get 0 = false
      ∧ (inState .stopping).sched.offDone.get 0 = false
      ∧ ((withEngine running (engineIn .idle)).engine 0).takesArming = true ∧ (running.engine 0).takesArming = false
      ∧ ((withList running [entryOf 1 .urgent, entryOf 2 .bulk]).list 0).Pairwise
          (fun x y => x.copy.cls.code ≤ y.copy.cls.code) := by decide

/-- A trunk that has had its STOP processing, one that has had its trunk-off processing, in STOPPING and out of it, and
one that a second RELOAD has made ACTIVE since. -/
theorem test_witness_late_claim :
    (inState .stopping).session.state = .stopping
      ∧ ({ Scheduler.reset with stopDone := Four.all true } : Scheduler).stopDone.get 0 = true
      ∧ running.session.state ≠ .stopping ∧ (inState .stopping).sched.stopDone.get 0 = false
      ∧ ({ Scheduler.reset with offDone := Four.all true } : Scheduler).offDone.get 0 = true
      ∧ ((withEngine running (engineIn .idle)).engine 0).mode = .active
      ∧ (claiming running (.send (copyOf .normal 0))).sweeper.sweep
          = some (sweepAt 7 (.claim (.send (copyOf .normal 0))) false)
      ∧ (claiming running (.repeating (copyOf .normal 0) 10)).sweeper.sweep
          = some (sweepAt 7 (.claim (.repeating (copyOf .normal 0) 10)) false) := by decide

theorem test_witness_repeat_claim :
    (sweepAt 7 (.claim (.repeating (copyOf .normal 0) 10)) false).stage = .claim (.repeating (copyOf .normal 0) 10)
      ∧ (inState .settling).sched.offDone.get 0 = false ∧ (inState .settling).session.state = .settling
      ∧ (inState .stopping).session.state = .stopping ∧ (inState .stopping).sched.stopDone.get 0 = false
      ∧ (inState .stopping).sched.offDone.get 0 = false
      ∧ ((withEngine (inState .settling) (engineIn .idle)).engine 0).takesArming = true
      ∧ ((inState .settling).engine 0).takesArming = false ∧ (inState .settling).sched.repeats = []
      ∧ ((withList running (entries 15)).list 0).length < 16 ∧ 16 ≤ ((withList running (entries 16)).list 0).length := by
  decide

theorem test_witness_receive_claim :
    (sweepAt 8 (.claim (.receive 1)) false).stage = .claim (.receive 1) ∧ (inState .paused).session.state = .paused
      ∧ (inState .paused).session.resumeOwed = none ∧ (inState .settling).session.state ≠ .running
      ∧ (inState .settling).session.state ≠ .paused := by decide

/-! ### Witnesses: the port -/

/-- A completed send result. -/
def someResult : SendResult :=
  { outcome := .sent, last := some .sent, attempts := 1, losses := 0, stamp := 0, repeats := 0, overruns := 0 }

/-- A RUNNING session with one entry in the completion queue. -/
def withWork (w : Work) : State := { running with results := { ResultWriter.reset with queue := [w] } }

/-- A RUNNING session with one frame in the delivery queue, its slot index 8. -/
def withFrame : State := { running with director := { Director.reset with queue := [frameOf (some 8)] } }

theorem test_witness_grant_order :
    (withWork (.done 0 someResult)).portFree = true ∧ (withWork (.done 0 someResult)).resultRequest.isSome = true
      ∧ withFrame.resultRequest = none ∧ withFrame.deliveryRequest.isSome = true
      ∧ running.deliveryRequest = none
      ∧ ({ running with header := [.startReads] } : State).headerRequest.isSome = true ∧ running.headerRequest = none
      ∧ ({ running with sweeper := { Sweeper.reset with sweep := some (sweepAt 0 .word0 false) } }
          : State).sweeperRequest.isSome = true
      ∧ (inState .standby).session.state = .standby ∧ (inState .faulted).session.state = .faulted := by decide

theorem test_witness_completion_units :
    (withWork (.done 0 someResult)).session.state = .running ∧ (inState .paused).session.state = .paused
      ∧ (inState .settling).session.state = .settling ∧ (inState .stopping).session.state = .stopping
      ∧ (withWork (.done 0 someResult)).port = { unit := none, abandoned := none }
      ∧ (withWork (.done 0 someResult)).results.queue = [.done 0 someResult]
      ∧ (withWork (.rejected 15 .badCheck)).results.queue = [.rejected 15 .badCheck]
      ∧ (withWork (.round 0 someResult)).results.queue = [.round 0 someResult]
      ∧ withFrame.results.queue = [] ∧ withFrame.director.nextWrite = some (frameOf (some 8))
      ∧ (frameOf (some 8)).slot = some 8 := by decide

/-- STOPPING with an entry in the receive list; each unit of the header writer; each stage of the sweeper. -/
theorem test_witness_other_units :
    let stopping : State :=
      { inState .stopping with director := { Director.reset with receiveList := [{ index := 8, mask := 1 }] } }
    let sweeps := fun g : SweepStage =>
      ({ running with sweeper := { Sweeper.reset with sweep := some (sweepAt 7 g false) } } : State)
    stopping.session.state = .stopping ∧ stopping.resultRequest = none ∧ stopping.director.nextWrite = none
      ∧ stopping.director.receiveList = { index := 8, mask := 1 } :: []
      ∧ stopping.port = { unit := none, abandoned := none }
      ∧ running.port = { unit := none, abandoned := none } ∧ running.session.state ≠ .standby
      ∧ running.session.state ≠ .faulted ∧ running.resultRequest = none ∧ running.deliveryRequest = none
      ∧ ({ running with header := [.startReads] } : State).header = .startReads :: []
      ∧ ({ running with header := [.startReads] } : State).resultRequest = none
      ∧ ({ running with header := [.finalUnit 7 3] } : State).header = .finalUnit 7 3 :: []
      ∧ running.header = [] ∧ (sweeps .word0).sweeper.sweep = some (sweepAt 7 .word0 false)
      ∧ (sweeps .word0).deliveryRequest = none
      ∧ (sweeps (.claim (.receive 1))).sweeper.sweep = some (sweepAt 7 (.claim (.receive 1)) false) := by decide

/-- A unit of two accesses, the first of them a part. -/
def twoParts (op : AccessOp) : PortUnit :=
  { kind := .sweeper, access := { role := .part, addr := 0, op := op }, timer := 1000
    rest := [{ role := .startReads, addr := 0x40, op := .read 8 }], data := [] }

theorem test_witness_access_completes :
    (twoParts (.read 16)).timer ≤ 1000 ∧ (twoParts (.read 16)).access.role = .part
      ∧ (twoParts (.read 16)).rest = [{ role := .startReads, addr := 0x40, op := .read 8 }]
      ∧ (twoParts (.byteWrite [1])).access.op = .byteWrite [1]
      ∧ (twoParts (.writeBurst [1])).access.op = .writeBurst [1] := by decide

theorem test_witness_access_of_each_role (r : Role) :
    ∃ u : PortUnit, (finishing running .sweeper { role := r, addr := 0, op := .read 1 }).port.unit = some u
      ∧ u.timer ≤ 1000 ∧ u.access.role = r := ⟨_, rfl, Nat.le_refl _, rfl⟩

theorem test_witness_state_write :
    (1000 ≤ 1000 ∧ ({ role := .stateWrite, addr := 0, op := .byteWrite [4#8] } : Access).role = .stateWrite)
      ∧ withFrame.director.queue.find? (fun x => x.slot == some 8) = some (frameOf (some 8)) := by decide

theorem test_witness_last_access (kind : UnitKind) (a : Access) : LastAccess (finishing running kind a) kind a [] :=
  ⟨1000, Nat.le_refl _, rfl⟩

theorem test_witness_count_write :
    ({ role := .countWrite, addr := 0, op := .byteWrite [8#8, 0#8] } : Access).op = .byteWrite [8#8, 0#8]
      ∧ (8#16 - ResultWriter.reset.reported).toNat = 8 ∧ (7#16 - ResultWriter.reset.reported).toNat ≠ 8
      ∧ (9#16 - 1#16).toNat = 8 ∧ (4#16 - 65532#16).toNat = 8
      ∧ (finishing running (.filled 8 1) { role := .countWrite, addr := 0x0C, op := .byteWrite [1#8, 0#8] }).port.unit
          ≠ none := by decide

theorem test_witness_uncounted_units :
    ({ role := .roundResult, addr := 0, op := .writeBurst someResult.bytes } : Access).role = .roundResult
      ∧ ({ role := .giveBack, addr := 0, op := .byteWrite [2#8] } : Access).role = .giveBack
      ∧ ({ role := .sweepEnd, addr := 0, op := .writeBurst [] } : Access).role = .sweepEnd
      ∧ ResultWriter.reset.written = ResultWriter.reset.reported
      ∧ ({ ResultWriter.reset with written := 1 } : ResultWriter).written ≠ ResultWriter.reset.reported := by decide

theorem test_witness_fault_entered :
    ({ twoParts (.read 16) with timer := 0 } : PortUnit).timer ≤ 1000 ∧ (twoParts (.read 16)).access.op = .read 16
      ∧ 1000 ≤ (twoParts (.read 16)).timer ∧ ({ Session.reset with inProgress := some .start }).inProgress = some .start
      ∧ running.session.inProgress = none := by decide

theorem test_witness_failed_write :
    Memory.wf running.memory ∧ (List.replicate 64 1#8).length ≤ 64
      ∧ exec .accessError (finishing running .sweeper { role := .claim, addr := 0, op := .byteWrite [3#8] })
          = .next (finishing running .sweeper { role := .claim, addr := 0, op := .byteWrite [3#8] }).accessFails
      ∧ [3#8][0]? = some 3#8 ∧ (List.replicate 64 1#8)[63]? = some 1#8 ∧ 1 ≤ (1#32 - 0#32).toNat
      ∧ 1 ≤ (0#32 - 1#32).toNat := by
  refine ⟨by decide, by decide, rfl, by decide⟩

theorem test_witness_abandoned :
    ({ unit := none, abandoned := some { access := { role := .claim, addr := 0, op := .byteWrite [3#8] }, timer := 0 } }
      : Port).abandoned = some { access := { role := .claim, addr := 0, op := .byteWrite [3#8] }, timer := 0 } := by decide

/-! ### Witnesses: START, RELOAD and the ends of commands -/

/-- A valid trunk record: ACTIVE, n = 2, filter 4, H = 5, own address `own`. -/
def goodRecord (own : Byte) : List Byte := [2, 2, 4, 5, own, 255, 255, 255, 62, 7, 1, 0, 0, 0, 0, 0]

/-- Header bytes 0x000 to 0x05F with N = 16, F = 15. -/
def goodHeader : List Byte :=
  [3, 0, 0, 0, 16, 0, 15, 0, 0xE8, 3, 1, 0, 0, 0, 0, 0] ++ List.replicate 16 0#8 ++ goodRecord 0 ++ goodRecord 61
    ++ goodRecord 5 ++ goodRecord 6

theorem test_witness_header_refused :
    firstBad (startChecks 0 { first := 0, bytes := 4 :: goodHeader.drop 1 }) = some 0
      ∧ firstBad (startChecks 0 { first := 0, bytes := goodHeader.take 0x5A }) = some 0x5A
      ∧ firstBad (commonChecks { first := 8, bytes := 0#8 :: 0#8 :: goodHeader.drop 10 }) = some 8
      ∧ ({ role := .startReads, addr := 0, op := .read 8 } : Access).op = .read 8
      ∧ ({ role := .reloadReads, addr := 0, op := .read 6 } : Access).op = .read 6 := by decide

/-- Two fields fail, and the lower offset answers: of the first fields and the shared ones, and within a record. -/
theorem test_first_bad_field :
    firstBad (startChecks 0 { first := 0, bytes := (goodHeader.set 0x5A 0).set 6 0 }) = some 6
      ∧ firstBad (startChecks 0 { first := 0, bytes := (goodHeader.set 0x25 0).set 0x24 63 }) = some 0x24
      ∧ firstBad (commonChecks { first := 8, bytes := ((goodHeader.set 0x59 8).set 0x31 1).drop 8 }) = some 0x31 := by
  decide

/-- Each mode of a trunk's record, in the whole header and in the part that RELOAD reads. -/
theorem test_witness_header_modes :
    (byteAt (goodHeader.set 0x20 0) 0x20).toNat = 0 ∧ (byteAt (goodHeader.set 0x20 1) 0x20).toNat = 1
      ∧ (byteAt goodHeader 0x50).toNat = 2
      ∧ firstBad (commonChecks { first := 8, bytes := goodHeader.drop 8 }) = none := by decide

/-- The header that passes, as the last access of the START reads finds it: in `d` and in memory. -/
theorem test_witness_header_passes :
    firstBad (startChecks 0 { first := 0, bytes :=
        (goodHeader.take 64 ++ Memory.readBytes (Memory.writeBytes [] 0x40 (goodHeader.drop 64)) 0x40 32) }) = none
      ∧ firstBad (startChecks 0xFFFFFB00 { first := 0, bytes := goodHeader }) = none
      ∧ firstBad (startChecks 0xFFFFFC00 { first := 0, bytes := goodHeader }) = some 4
      ∧ firstBad (commonChecks { first := 8, bytes :=
        ((goodHeader.drop 8).take 64
          ++ Memory.readBytes (Memory.writeBytes [] 0x48 (goodHeader.drop 72)) 0x48 24) }) = none := by decide

theorem test_witness_start_unit :
    ({ role := .startUnit, addr := 0x0C, op := .writeBurst [0] } : Access).role = .startUnit
      ∧ ({ Session.reset with startModes := Four.all .listen } : Session).startModes.get 0 ≠ .off
      ∧ Session.reset.startModes.get 0 = .off := by decide

theorem test_witness_reload :
    (trunkRecord { first := 8, bytes := goodHeader.drop 8 } 0).listen.own = (Director.reset.listen.get 0).own
      ∧ (trunkRecord { first := 8, bytes := goodHeader.drop 8 } 0).listen.groups ≠ (Director.reset.listen.get 0).groups
      ∧ (trunkRecord { first := 8, bytes := goodHeader.drop 8 } 1).listen.own ≠ (Director.reset.listen.get 1).own := by
  decide

/-- A RELOAD's last access in RUNNING, trunk 0 with this mode byte. -/
def reloading (s : State) (m : Byte) : State :=
  { s with
    memory := Memory.writeBytes [] 0x48 (goodHeader.drop 72)
    port :=
      { unit := some
          { kind := .header .reloadReads, access := { role := .reloadReads, addr := 0x48, op := .read 6 }, timer := 1000
            rest := [], data := ((goodHeader.set 0x20 m).drop 8).take 64 }
        abandoned := none } }

theorem test_witness_reload_access (s : State) (m : Byte) :
    LastAccess (reloading s m) (.header .reloadReads) { role := .reloadReads, addr := 0x48, op := .read 6 }
      (((goodHeader.set 0x20 m).drop 8).take 64) := ⟨1000, Nat.le_refl _, rfl⟩

/-- The header that the RELOAD of `reloading` reads. -/
def reloaded (m : Byte) : HeaderBytes :=
  { first := 8
    bytes := ((goodHeader.set 0x20 m).drop 8).take 64 ++ Memory.readBytes (reloading running m).memory 0x48 24 }

/-- A RELOAD to each mode passes its checks; trunk 0's record has the same timing values as one engine and not as
another. -/
theorem test_witness_reload_modes :
    firstBad (commonChecks (reloaded 0)) = none ∧ firstBad (commonChecks (reloaded 1)) = none
      ∧ firstBad (commonChecks (reloaded 2)) = none ∧ (reloading running 0).session.state = .running
      ∧ (reloading (inState .paused) 0).session.state = .paused ∧ (trunkRecord (reloaded 0) 0).mode = .off
      ∧ (trunkRecord (reloaded 1) 0).mode = .listen ∧ (trunkRecord (reloaded 2) 0).mode = .active
      ∧ (trunkRecord (reloaded 0) 0).timing = { unit := 2, filter := 4, hold := 5 }
      ∧ (engineIn .idle).timing ≠ { unit := 2, filter := 4, hold := 5 } ∧ (engineIn .idle).pendingTiming = none
      ∧ (trunkRecord (reloaded 2) 0).windowMode = true ∧ Scheduler.reset.windowMode.get 0 = false := by decide

/-- The engines that the RELOAD meets: OFF; at rest, to be selected for or not; with a frame or an outcome to wait for. -/
theorem test_witness_reload_engines :
    OffAgrees Engine.reset ∧ Engine.reset.mode = .off ∧ OffAgrees (engineIn .holding) ∧ (engineIn .holding).mode ≠ .off
      ∧ (engineIn .idle).state = .idle ∧ (engineIn .idle).level = .high ∧ (engineIn .idle).attempt = none
      ∧ ({ engineIn .idle with mode := .listen } : Engine).mode ≠ .active
      ∧ ({ engineIn .idle with pendingOff := true } : Engine).pendingOff = true
      ∧ (engineIn .receiving).state ≠ .idle ∧ (engineIn .receiving).state ≠ .holding
      ∧ (engineIn .receiving).state ≠ .stuck ∧ OffAgrees (engineIn .receiving)
      ∧ ({ engineIn .holding with armed := some { index := 0, cls := .normal, retry := false, holdUnits := 8 } }
          : Engine).armed ≠ none
      ∧ ({ engineIn .idle with attempt := some (attemptAt 0 true) } : Engine).attempt ≠ none := by
  unfold OffAgrees
  decide

/-- A RELOAD to OFF at its last access, with an entry in trunk 0's list and nothing for its engine to wait for. -/
def reloadingOff : State :=
  { reloading (withEngine (holdsOne .running (entryOf 3 .normal)) (engineIn .idle)) 0 with header := [.reloadReads] }

theorem test_witness_reload_off :
    HeldMapKept reloadingOff ∧ (∀ o : Trunk, OffAgrees (reloadingOff.engine o)) ∧ reloadingOff.session.state = .running
      ∧ goesOffAtOnce (reloadingOff.engine 0) (trunkRecord (reloaded 0) 0).mode = true
      ∧ goesOffAtOnce (reloadingOff.engine 1) (trunkRecord (reloaded 0) 1).mode = false := by
  obtain ⟨⟨front, hf, _, hh⟩, hr, hs, _, ho⟩ := test_witness_held_map .running (entryOf 3 .normal) rfl rfl
  have h0 : front = false := hf (by decide)
  subst h0
  refine ⟨⟨⟨false, fun _ => rfl, (fun h => nomatch h), hh⟩, hr, hs, ⟨by decide, by decide, by decide, by decide⟩,
    ⟨fun h => ?_, ho.2⟩⟩, by unfold OffAgrees; decide, rfl, by decide, by decide⟩
  rcases h with h | h
  · exact nomatch h
  · exact absurd rfl h

theorem test_witness_settling_end :
    (inState .settling).session.state = .settling ∧ (inState .settling).sweeper.sweep = none
      ∧ (∀ t : Trunk, (inState .settling).inFlight t = false) ∧ (inState .settling).results.queue = []
      ∧ (∀ q ∈ [frameOf none], q.slot = none) ∧ (inState .settling).header = []
      ∧ (inState .settling).port.unit = none
      ∧ ({ Session.reset with resumeOwed := some 0 } : Session).resumeOwed = some 0 := by decide

theorem test_witness_stopping_end :
    (inState .stopping).session.state = .stopping ∧ (inState .stopping).sched.repeats = []
      ∧ (∀ t : Trunk, ({ Scheduler.reset with stopDone := Four.all true } : Scheduler).stopDone.get t = true)
      ∧ (inState .stopping).director.receiveList = []
      ∧ ({ role := .finalUnit, addr := 0x60, op := .writeBurst [0] } : Access).role = .finalUnit := by decide

/-! ### Witnesses: the line -/

/-- An ACTIVE engine in RECEIVING, so many us after its last edge, at a level; the unit is 100 us. -/
def receivingAt (l : Level) (lead : Bool) (micros : Nat) : Engine :=
  { engineIn .receiving with level := l, edgeTime := micros, buffer := { Buffer.cleared false with leadTaken := lead } }

theorem test_witness_edges :
    (engineIn .idle).state = .idle ∧ (engineIn .idle).pulse = .quiet ∧ (engineIn .idle).level = .high
      ∧ (receivingAt .low false 0).level = .low ∧ ({ engineIn .idle with candidate := true } : Engine).candidate = true
      ∧ 60 * (engineIn .idle).timing.unit ≤ 600 ∧ 599 < 60 * (engineIn .idle).timing.unit := by decide

/-- Edges that show nothing special while a frame is followed: the fall that takes the lead, one that appends a symbol,
the one that completes an octet, symbol 21, and a rise; the gap of 2U at its boundary. -/
theorem test_witness_followed_edges :
    (receivingAt .high false 400).judgeEdge .low = .plain ∧ (receivingAt .high true 200).judgeEdge .low = .plain
      ∧ (receivingAt .high true 199).judgeEdge .low = .plain ∧ (receivingAt .low true 100).judgeEdge .high = .plain
      ∧ (receivingAt .high true 200).window = none ∧ (receivingAt .high true 200).pulse = .quiet
      ∧ 20 * (receivingAt .high true 200).timing.unit ≤ 200 ∧ 199 < 20 * (receivingAt .high true 199).timing.unit
      ∧ ([true, false, true, false, true, false, true] ++ [decide (20 * 10 ≤ 200)]).length = 8
      ∧ ({ Buffer.cleared false with leadTaken := true, count := 20 } : Buffer).count = 20 := by decide

/-- Edges in the reply window of a received frame, answered and not. -/
theorem test_witness_window_edges :
    (engineIn .answering).pulse ≠ .gap ∧ (∀ w < 4, (engineIn .answering).pulse ≠ .rising w)
      ∧ ({ receivingAt .low true 0 with window := some 0 } : Engine).window ≠ none
      ∧ (receivingAt .low true 0).drives = false ∧ (engineIn .answering).level = .high := by decide

/-- The frame that fails its check, and the one that passes, each complete. -/
theorem test_witness_foreign_frame :
    (receivingAt .low false 1000).window = none ∧ (receivingAt .low false 1000).state = .receiving
      ∧ (receivingAt .low false 1000).malformedByTime ≠ none ∧ (receivingAt .low false 1000).edgeDue = true
      ∧ ({ receivingAt .low false 1000 with stationsLow := true } : Engine).edgeDue = false
      ∧ (receivingAt .low true 49).level ≠ .high ∧ (receivingAt .low true 49).drives = false
      ∧ (receivingAt .low true 49).malformedByTime = none
      ∧ (receivingAt .low true 49).judgeEdge .high = .malformed .shapeError
      ∧ ({ Buffer.cleared false with count := 32, length := some 0, sum := 255 } : Buffer).complete = true
      ∧ ({ Buffer.cleared false with count := 32, length := some 0, sum := 254 } : Buffer).sum ≠ 255#8
      ∧ (Buffer.cleared false).complete = false := by decide

/-- A trunk 0 that has followed a frame of these octets to its tail mark, in a session state. -/
def atTail (x : SessionState) (octets : List Byte) : State :=
  withEngine (inState x)
    { engineIn .receiving with
      level := .low, edgeTime := 100
      buffer :=
        { own := false, leadTaken := true, count := 8 * octets.length, octets := octets, bits := []
          length := some (octets.length - 4), sum := octetSum octets } }

/-- A unicast frame with reply wanted 1, and one with reply wanted 0, pass their checks; both match own address 5. -/
theorem test_witness_good_frame :
    ((atTail .running [69, 51, 19, 16, 32, 68]).engine 0).buffer.complete = true
      ∧ ((atTail .running [69, 51, 19, 16, 32, 68]).engine 0).buffer.sum = 255#8
      ∧ ((atTail .running [69, 50, 19, 16, 32, 69]).engine 0).buffer.sum = 255#8
      ∧ (frameOfOctets [69, 51, 19, 16, 32, 68]).replyWanted = true
      ∧ (frameOfOctets [69, 50, 19, 16, 32, 69]).replyWanted = false
      ∧ (frameOfOctets [69, 51, 19, 16, 32, 68]).dest = ({ Listen.reset with own := 5 } : Listen).own
      ∧ (frameOfOctets [69, 51, 19, 16, 32, 68]).dest ≠ Listen.reset.own
      ∧ ({ Session.reset with state := .running, resumeOwed := some 0 } : Session).resumeOwed ≠ none
      ∧ running.session.resumeOwed = none
      ∧ ((atTail .running [69, 51, 19, 16, 32, 68]).engine 0).window = none
      ∧ ((atTail .running [69, 51, 19, 16, 32, 68]).engine 0).drives = false
      ∧ 5 * 10 ≤ ((atTail .running []).engine 0).edgeTime ∧ ((atTail .running []).engine 0).edgeTime ≤ 15 * 10
      ∧ (List.replicate 5 (frameOf none)).length < 6 ∧ 6 ≤ (List.replicate 6 (frameOf none)).length := by decide

/-- An earlier copy of the worked frame, in the duplicate table. -/
theorem test_witness_duplicate :
    ((noDuplicates.setIfInBounds 12 (some (frameOfOctets [69, 51, 19, 16, 32, 68]).duplicate))[12]?)
      = some (some { toggle := true, length := 2, check := 68 }) := by decide

theorem test_witness_answers :
    (engineIn .answering).state = .answering ∧ (engineIn .answering).pulse = .quiet
      ∧ ({ engineIn .answering with window := some 200 } : Engine).window = some 200
      ∧ 20 * (engineIn .answering).timing.unit ≤ 200 ∧ 199 < 20 * (engineIn .answering).timing.unit
      ∧ ({ engineIn .answering with pulse := .answer 500, answer := .busy } : Engine).pulse = .answer 500
      ∧ ({ engineIn .answering with answer := .accept } : Engine).answer = .accept
      ∧ 50 * (engineIn .answering).timing.unit ≤ 500 ∧ 899 < 90 * (engineIn .answering).timing.unit := by decide

theorem test_witness_sent_frames :
    (copyOf .bulk 24).dest ≤ 63 ∧ (copyOf .bulk 24).channel ≤ 7 ∧ (copyOf .bulk 24).length ≤ 24
      ∧ (copyOf .bulk 24).payload.length = (copyOf .bulk 24).length
      ∧ ({ Listen.reset with own := 62 } : Listen).own ≤ 62 ∧ ¬ ((copyOf .bulk 24).dest = 63 ∧ true = true) := by decide

/-! ### Witnesses: sending -/

/-- A HOLDING engine whose armed entry is index 0, its hold clock at 8U. -/
def holding : Engine :=
  { engineIn .holding with
    armed := some { index := 0, cls := .normal, retry := false, holdUnits := 8 }, holdClock := 800 }

theorem test_witness_lead_starts :
    running.session.state = .running ∧ holding.state = .holding ∧ holding.mode = .active ∧ holding.pendingOff = false
      ∧ holding.armed = some { index := 0, cls := .normal, retry := false, holdUnits := 8 }
      ∧ 8 * (10 * holding.timing.unit) ≤ holding.holdClock
      ∧ (withList running [entryOf 0 .normal]).findEntry 0 0 = some (entryOf 0 .normal)
      ∧ (withList running [entryOf 0 .normal]).eligible 0 (entryOf 0 .normal) = true
      ∧ (withList running [entryOf 0 .normal]).eligible 0 { entryOf 0 .normal with endMark := .expired } = false := by
  decide

/-- Where no lead starts: every session state but RUNNING, an engine that is not HOLDING, not ACTIVE or has pending OFF, no
armed entry, and one microsecond before the hold time. -/
theorem test_witness_no_lead :
    (∀ x ∈ [SessionState.unset, .paused, .settling, .standby, .stopping, .faulted],
        (inState x).session.state ≠ .running)
      ∧ (engineIn .idle).state ≠ .holding ∧ ({ holding with mode := .listen } : Engine).mode ≠ .active
      ∧ ({ holding with pendingOff := true } : Engine).pendingOff = true ∧ (engineIn .holding).armed = none
      ∧ 799 < 8 * (10 * holding.timing.unit) := by decide

/-- Both forms of the last clause: a later entry whose hold time is over, and one whose is not. -/
theorem test_witness_lead_of_another :
    (withList running [{ entryOf 0 .normal with endMark := .expired }, entryOf 1 .bulk]).findEntry 0 1
        = some (entryOf 1 .bulk)
      ∧ holding.timing.hold + 2 * FrameClass.urgent.code + 4 * false.toNat ≤ 8
      ∧ holding.holdClock < (holding.timing.hold + 2 * FrameClass.bulk.code + 4 * false.toNat)
          * (10 * holding.timing.unit) := by decide

/-- An engine that sends, with a pulse and a time since its last edge. -/
def sendingAt (p : Phase) (u : Pulse) (l : Level) (micros : Nat) (position : Nat) : Engine :=
  { engineIn (.sending p) with
    pulse := u, level := l, edgeTime := micros, attempt := some (attemptAt position true) }

/-- Symbol 23 of this attempt is a 0 and symbol 24 a 1. -/
theorem test_witness_own_elements :
    (sendingAt .lead (.mark 800) .low 0 0).pulse = .mark 800 ∧ 80 * 10 ≤ 800 ∧ 799 < 80 * 10
      ∧ (sendingAt .lead (.mark 0) .high 0 0).level = .high
      ∧ (sendingAt .lead (.rising 200) .low 0 0).pulse = .rising 200
      ∧ (sendingAt .lead (.rising 200) .low 0 0).reply = .unset ∧ 200 ≤ 20 * 10
      ∧ (sendingAt .symbols .gap .high 50 23).pulse = .gap ∧ (attemptAt 23 true).symbol 23 = false
      ∧ (attemptAt 24 true).symbol 24 = true ∧ 23 + 1 < 32 + 8 * (attemptAt 23 true).length
      ∧ ¬ 31 + 1 < 32 + 8 * (attemptAt 31 true).length := by decide

theorem test_witness_lost_and_shape :
    (sendingAt .symbols .gap .high 50 24).attempt = some (attemptAt 24 true) ∧ (attemptAt 24 true).symbol 24 = true
      ∧ 5 * 10 ≤ 50 ∧ 199 < 20 * 10 ∧ (sendingAt .lead .gap .high 299 0).edgeTime < 30 * 10
      ∧ (sendingAt .symbols .gap .high 49 0).edgeTime < 5 * 10
      ∧ (sendingAt .lead (.mark 50) .high 0 0).edgeDue = true
      ∧ ({ (sendingAt .lead (.mark 50) .high 0 0) with timing := { unit := 10, filter := 1, hold := 6 } }
          : Engine).edgeDue = false
      ∧ ({ (sendingAt .lead (.rising 200) .low 0 0) with stationsLow := true } : Engine).edgeDue = false := by decide

theorem test_witness_tail :
    (sendingAt .tail (.rising 200) .low 0 31).state = .sending .tail
      ∧ (sendingAt .tail (.rising 200) .low 0 31).pulse = .rising 200
      ∧ (attemptAt 31 true).replyWanted = true ∧ (attemptAt 31 false).replyWanted = false
      ∧ (engineIn .replyWait).state = .replyWait
      ∧ ({ engineIn .replyWait with window := some 900 } : Engine).window = some 900 ∧ 90 * 10 ≤ 900 := by decide

/-- The pulse lengths at the ends of R14's rows. -/
theorem test_witness_reply :
    (engineIn .replyWait).pulse = .quiet ∧ (engineIn .replyWait).level = .high
      ∧ ({ engineIn .replyWait with reply := .waiting } : Engine).reply = .waiting
      ∧ (engineIn .replyWait).state.isSending = false ∧ (engineIn .replyWait).window = none
      ∧ (10 * 10 ≤ 100 ∧ 300 ≤ 30 * 10) ∧ 99 < 10 * 10 ∧ (10 * 10 ≤ 349 ∧ 349 < 35 * 10)
      ∧ (35 * 10 ≤ 350 ∧ 700 ≤ 70 * 10) ∧ 70 * 10 < 701 ∧ 70 * 10 ≤ 700 ∧ 699 < 70 * 10 := by decide

/-! ### Witnesses: the scheduler and the repeat table -/

theorem test_witness_outcome :
    State.reset.schedulerLive = false ∧ running.schedulerLive = true
      ∧ (withList running [entryOf 0 .normal]).findEntry 0 0 = some (entryOf 0 .normal)
      ∧ ({ entryOf 0 .normal with endMark := .cancelled } : Entry).endMark = .cancelled
      ∧ ({ entryOf 0 .normal with endMark := .expired } : Entry).endMark = .expired
      ∧ (entryOf 0 .normal).endMark = .none
      ∧ (entryOf 0 .normal).copy.retries < ({ entryOf 0 .normal with failures := 1 } : Entry).failures + 1
      ∧ (entryOf 0 .normal).failures + 1 ≤ (entryOf 0 .normal).copy.retries
      ∧ (inState .stopping).sched.stopDone.get 0 = false
      ∧ ∀ y ∈ [entryOf 0 .normal], y.index ≠ 0 → y.condition ≠ .inFlight := by decide

/-- An attempt in flight in STOPPING, alone in its list, with each end mark. -/
theorem test_witness_outcome_in_stopping (m : EndMark) :
    HeldMapKept (holdsOne .stopping { entryOf 3 .normal with condition := .inFlight, endMark := m })
      ∧ (holdsOne .stopping { entryOf 3 .normal with condition := .inFlight, endMark := m }).findEntry 0 3
          = some { entryOf 3 .normal with condition := .inFlight, endMark := m } :=
  ⟨test_witness_held_map _ _ rfl rfl, rfl⟩

theorem test_witness_stuck :
    (engineIn .holding).state = .holding ∧ 400 * 10 ≤ 4000 ∧ 3999 < 400 * 10 ∧ (engineIn .stuck).state = .stuck
      ∧ (engineIn .stuck).level = .high ∧ 200 * 10 ≤ 2000 ∧ 1999 < 200 * 10
      ∧ ({ engineIn .idle with pendingTiming := some { unit := 2, filter := 0, hold := 5 } } : Engine).pendingTiming
          = some { unit := 2, filter := 0, hold := 5 }
      ∧ (engineIn .idle).level = .high ∧ (engineIn .idle).attempt = none ∧ (inState .faulted).session.state = .faulted
      ∧ ({ engineIn .idle with attempt := some (attemptAt 0 true) } : Engine).attempt ≠ none
      ∧ ({ engineIn .idle with level := .low } : Engine).level = .low := by decide

theorem test_witness_trunk_off :
    ({ engineIn .stuck with pendingOff := true } : Engine).pendingOff = true ∧ (engineIn .stuck).attempt = none
      ∧ ({ engineIn .idle with pendingOff := true } : Engine).state = .idle
      ∧ ({ engineIn .holding with pendingOff := true } : Engine).state = .holding
      ∧ (inState .faulted).schedulerLive = false ∧ running.schedulerLive = true
      ∧ running.session.state ≠ .standby ∧ (inState .standby).session.state = .standby
      ∧ (engineIn .idle).pendingOff = false ∧ (engineIn .receiving).state ≠ .idle
      ∧ (engineIn .receiving).state ≠ .holding ∧ (engineIn .receiving).state ≠ .stuck
      ∧ ({ engineIn .idle with attempt := some (attemptAt 0 true) } : Engine).attempt ≠ none := by decide

/-- A trunk with an ordinary entry, a round and two repetitions between rounds, one of them on another trunk. -/
theorem test_witness_trunk_off_results :
    let s := withTable (withEngine running { engineIn .idle with pendingOff := true })
      [entryOf 1 .urgent, roundOf 4 .waiting]
      [repeatOf 4 .inRound, repeatOf 2 .between,
        { repeatOf 3 .between with copy := { copyOf .normal 0 with trunk := 1 } }]
    DistinctOn s 0 ∧ s.schedulerLive = true ∧ (s.engine 0).pendingOff = true
      ∧ roundIn (s.list 0) (repeatOf 4 .inRound) = true ∧ roundIn (s.list 0) (repeatOf 2 .between) = false
      ∧ LeftOver s.sched.repeats 0 (s.list 0) [repeatOf 2 .between]
      ∧ trunkEnds s.sched.repeats (s.list 0) [repeatOf 2 .between] .trunkOff 7
          = [entryDone (entryOf 1 .urgent) .trunkOff 7, roundDone (repeatOf 4 .inRound) (roundOf 4 .waiting) .trunkOff 7,
              repeatDone (repeatOf 2 .between) .trunkOff 7] := by
  refine ⟨⟨by decide, by decide⟩, by decide, by decide, by decide, by decide, ⟨by decide, fun r => ?_⟩, by decide⟩
  refine ⟨fun h => ?_, fun ⟨h, ht, hr⟩ => ?_⟩
  · cases List.mem_singleton.mp h
    decide
  · rcases List.mem_cons.mp h with h | h
    · subst h; exact absurd hr (by decide)
    · rcases List.mem_cons.mp h with h | h
      · exact h ▸ List.mem_singleton.mpr rfl
      · cases List.mem_singleton.mp h
        exact absurd ht (by decide)

/-- A trunk off in STANDBY (R102, R169): in a part that waits, nothing finishes; else a marked entry and an unmarked one
end TRUNK_OFF, and wait in the completion queue. -/
theorem test_trunk_off_in_standby :
    let s := withList (inState .standby) [markedEntry 2, entryOf 3 .normal]
    (Config.trunkOffWaits = true ∧ (s.takeOffReport 0).results.queue = []
      ∧ (s.takeOffReport 0).list 0 = [markedEntry 2, entryOf 3 .normal])
    ∨ (Config.trunkOffWaits = false ∧ (s.takeOffReport 0).results.queue
        = [entryDone (markedEntry 2) .trunkOff 0, entryDone (entryOf 3 .normal) .trunkOff 0]) := by
  dsimp only
  rcases Laws.takeOffReport_cases (withList (inState .standby) [markedEntry 2, entryOf 3 .normal]) 0
    with h | h | h
  · exact absurd h.1 (by decide)
  · rw [h.2.2]
    exact .inl ⟨h.2.1, by decide, by decide⟩
  · rw [h.2.2]
    exact .inr ⟨h.2.1.resolve_left (fun k => k rfl), by decide⟩

/-- STANDBY with one entry in trunk 0's list, and that trunk's trunk-off processing kept back. -/
def owesTrunkOff (e : Entry) : State := (holdsOne .standby e).setOffOwed 0 true

theorem test_witness_owes_trunk_off :
    HeldMapKept (owesTrunkOff (entryOf 3 .normal)) ∧ (owesTrunkOff (entryOf 3 .normal)).session.state = .standby
      ∧ (owesTrunkOff (entryOf 3 .normal)).sched.offOwed.get 0 = true
      ∧ (owesTrunkOff (entryOf 3 .normal)).sched.offOwed.get 1 = false
      ∧ unmarked (owesTrunkOff (entryOf 3 .normal)) 0 = [entryOf 3 .normal] :=
  ⟨test_witness_held_map .standby (entryOf 3 .normal) rfl rfl, rfl, rfl, rfl, by decide⟩

/-- RESUME after it (R97, R171; log 33): a marked entry ends EXPIRED with its kept stamp, then an unmarked one TRUNK_OFF. -/
theorem test_resume_ends_owed :
    (((withList (inState .standby) [entryOf 3 .normal, markedEntry 2]).setOffOwed 0 true).resumeFromStandby).results.queue
      = [entryDone (markedEntry 2) .expired 3, entryDone (entryOf 3 .normal) .trunkOff 0] := by decide

theorem test_witness_rest_and_expiry :
    running.schedulerLive = true
      ∧ (withList running [{ entryOf 0 .normal with condition := .resting 1 0 }]).trunkOf 0 = some 0
      ∧ ({ entryOf 0 .normal with condition := .resting 1000 0 } : Entry).condition = .resting 1000 0
      ∧ (1000 ≤ (1000#32 - 0#32).toNat ∧ (999#32 - 0#32).toNat < 1000) ∧ 1000 ≤ (999#32 - 0xFFFFFFFF#32).toNat
      ∧ ({ copyOf .normal 0 with expiry := some 65535 } : SendCopy).expiry = some 65535
      ∧ (entryOf 0 .normal).endMark = .none ∧ (inState .standby).session.state = .standby
      ∧ (entryOf 0 .normal).condition ≠ .inFlight ∧ (roundOf 4 (.resting 1000 0)).round = true
      ∧ (roundOf 4 (.resting 1000 0)).condition ≠ .inFlight := by decide

/-- A cancellation finds: a waiting entry and a waiting round; an ordinary entry and a round in flight, each without and
with an end mark; a repetition between rounds; an index that stands nowhere; an entry of the receive list. -/
theorem test_witness_cancellations :
    let s := withTable running [entryOf 1 .urgent, roundOf 4 .waiting] [repeatOf 4 .inRound, repeatOf 2 .between]
    let r : State := { running with director := { Director.reset with receiveList := [{ index := 8, mask := 1 }] } }
    s.trunkOf 1 = some 0 ∧ s.findEntry 0 1 = some (entryOf 1 .urgent) ∧ (entryOf 1 .urgent).condition ≠ .inFlight
      ∧ s.trunkOf 4 = some 0 ∧ s.findEntry 0 4 = some (roundOf 4 .waiting) ∧ (roundOf 4 .waiting).round = true
      ∧ (withList running [roundOf 4 .inFlight]).findEntry 0 4 = some (roundOf 4 .inFlight)
      ∧ (roundOf 4 .inFlight).condition = .inFlight ∧ (roundOf 4 .inFlight).endMark = .none
      ∧ ({ roundOf 4 .inFlight with endMark := .expired } : Entry).endMark ≠ .none
      ∧ ({ entryOf 1 .urgent with condition := .inFlight } : Entry).round = false
      ∧ s.trunkOf 2 = none ∧ s.sched.repeats.find? (fun x => x.index == 2) = some (repeatOf 2 .between)
      ∧ s.trunkOf 9 = none ∧ (∀ x ∈ s.sched.repeats, x.index ≠ 9)
      ∧ (∃ o ∈ r.director.receiveList, o.index = 8) ∧ (∀ o ∈ r.director.receiveList, o.index ≠ 9) := by decide

theorem test_witness_due_times :
    ({ running with sched := { Scheduler.reset with repeats := [repeatOf 0 .between] } } : State).findRepeat 0
        = some (repeatOf 0 .between)
      ∧ (running.session.deviceTime - (repeatOf 0 .between).nextDue).toNat < 2147483648
      ∧ (2147483647#32 - 0#32).toNat < 2147483648 ∧ (repeatOf 0 .inRound).round ≠ .between
      ∧ 16 ≤ ((withList running (entries 16)).list 0).length ∧ (inState .stopping).session.state = .stopping
      ∧ (withTable running (entries 15) [repeatOf 20 .between]).findRepeat 20 = some (repeatOf 20 .between)
      ∧ (withTable running (entries 15) [repeatOf 20 .between]).placesTaken 0 < 16
      ∧ (∀ x ∈ [repeatOf 20 .between], x.index = 20) := by decide

theorem test_witness_round_join :
    running.sched.offDone.get 0 = false ∧ running.placesTaken 0 < 16
      ∧ (withList running (entries 15)).placesTaken 0 < 16
      ∧ repeatOf 0 (.due 0) ∈ [repeatOf 0 (.due 0), repeatOf 1 (.due 0)] ∧ (repeatOf 0 (.due 0)).copy.trunk = 0
      ∧ ∀ x ∈ [repeatOf 0 (.due 0), repeatOf 1 (.due 0)], x ≠ repeatOf 0 (.due 0) → 0 < x.index := by decide

/-- A repetition in round, without and with an end request, and round results that wait: none; one at the front, in hand
at the port or not; one behind the front in hand. -/
theorem test_witness_round_ends :
    (withTable running [] [repeatOf 4 .inRound]).sched.repeats.find? (fun x => x.index == 4) = some (repeatOf 4 .inRound)
      ∧ (repeatOf 4 .inRound).endRequest = false
      ∧ ({ repeatOf 4 .inRound with endRequest := true } : RepeatEntry).endRequest = true
      ∧ running.session.state ≠ .stopping ∧ (inState .stopping).session.state = .stopping
      ∧ (∀ old, Work.round 4 old ∉ [Work.done 4 someResult])
      ∧ (withWork (.round 4 someResult)).results.queue = [] ++ .round 4 someResult :: []
      ∧ [Work.round 4 someResult, .rejected 1 .badCheck, .round 4 someResult]
          = .round 4 someResult :: [.rejected 1 .badCheck] ++ .round 4 someResult :: [] := by
  refine ⟨by decide, by decide, by decide, by decide, by decide, ?_, by decide, by decide⟩
  intro old h
  exact nomatch List.mem_singleton.mp h

theorem test_witness_front_in_hand (s : State) (i : Nat) (a : Access) :
    FrontInHand (finishing s (.roundResult i) a) ∧ ¬ FrontInHand running :=
  ⟨⟨_, rfl, .inr ⟨i, rfl⟩⟩, fun ⟨_, h, _⟩ => nomatch h⟩

/-! ### Witnesses: slots and invariants -/

theorem test_witness_slots :
    SlotsInOrder [frameOf (some 8), frameOf none] ∧ ¬ SlotsInOrder [frameOf none, frameOf (some 8)]
      ∧ assignFrom [] [frameOf none] [{ index := 8, mask := 2 }, { index := 9, mask := 1 }]
          = ([frameOf (some 9)], [{ index := 8, mask := 2 }])
      ∧ (∃ z ∈ (assignFrom [] [frameOf none] []).1, z.trunk = (frameOf none).trunk ∧ z.slot = none)
      ∧ ¬ (∃ z ∈ (assignFrom [] [frameOf (some 8)] []).1, z.trunk = (frameOf none).trunk ∧ z.slot = none)
      ∧ ((2 : BitVec 4).getLsbD (frameOf none).trunk.val = false ∧ (1 : BitVec 4).getLsbD (frameOf none).trunk.val = true)
      := by
  refine ⟨by unfold SlotsInOrder; decide, by unfold SlotsInOrder; decide, by decide⟩

theorem test_witness_invariants :
    MemoryCanonical running ∧ WithinPlaces running ∧ SlotsInOrder running.director.queue
      ∧ WakeOnlyInStandby { inState .standby with standby := { running.standby with wake := true } }
      ∧ ListsInClassOrder (withList running [entryOf 0 .urgent, entryOf 1 .bulk])
      ∧ ∀ o : Trunk, OffAgrees (running.engine o) := by
  refine ⟨by unfold MemoryCanonical; decide, ?_, by unfold SlotsInOrder; decide, by unfold WakeOnlyInStandby; decide,
    by unfold ListsInClassOrder; decide, by unfold OffAgrees; decide⟩
  exact ⟨by decide, by decide, by decide, by decide, trivial⟩

/-- A completion unit at its count write lags the count by one; without a unit the counts agree. -/
theorem test_witness_counts :
    CountsAgree running
      ∧ CountsAgree
          { finishing running (.completion 3 1) { role := .countWrite, addr := 0x0C, op := .byteWrite [1#8, 0#8] } with
            results := { ResultWriter.reset with countCopy := 1 } } := by
  refine ⟨⟨(fun h => nomatch h), .inl rfl⟩, ⟨(fun h => nomatch h), rfl, rfl, ?_⟩⟩
  decide

end Sys2Proof.Tests
end

/-! SUPPORT. The IRQ line (R147): its reading bit by bit, and the causes and enables after each row that sets or clears
them. -/

namespace Sys2Proof.Proofs

open Sys2Proof.Machine Sys2Proof.Laws

/-! ### What the line reads -/

theorem and_ne_zero_iff_common_bit {w : Nat} (a b : BitVec w) :
    a &&& b ≠ 0#w ↔ ∃ k, k < w ∧ a.getLsbD k = true ∧ b.getLsbD k = true := by
  rw [ne_eq, BitVec.eq_of_getLsbD_eq_iff]
  simp

theorem irq_iff_and_ne_zero (s : State) : s.irq = true ↔ s.regs.intCause &&& s.regs.intEnable ≠ 0#6 := by
  simp [State.irq]

theorem irq_iff_enabled_cause (s : State) :
    s.irq = true ↔ ∃ k, k < 6 ∧ s.regs.intCause.getLsbD k = true ∧ s.regs.intEnable.getLsbD k = true :=
  (irq_iff_and_ne_zero s).trans (and_ne_zero_iff_common_bit _ _)

/-- The line reads nothing but the causes and the enables. -/
theorem irq_congr_regs {s t : State} (h : t.regs = s.regs) : t.irq = s.irq := by
  simp [State.irq, h]

theorem irq_eq_false_of_no_cause {s : State} (h : s.regs.intCause = 0#6) : s.irq = false := by
  simp [State.irq, h]

/-! ### A cause raised -/

theorem cause_bit_lt (c : Cause) : c.bit < 6 := by
  cases c <;> decide

@[simp] theorem raise_intEnable (s : State) (c : Cause) : (s.raise c).regs.intEnable = s.regs.intEnable := rfl

theorem raise_intCause (s : State) (c : Cause) :
    (s.raise c).regs.intCause = s.regs.intCause ||| (1#6 <<< c.bit) := rfl

theorem raise_sets_cause (s : State) (c : Cause) : (s.raise c).regs.intCause.getLsbD c.bit = true := by
  simp [raise_intCause, cause_bit_lt c]

theorem irq_raise_of_enabled {s : State} {c : Cause} (enabled : s.regs.intEnable.getLsbD c.bit = true) :
    (s.raise c).irq = true :=
  (irq_iff_enabled_cause _).mpr ⟨c.bit, cause_bit_lt c, raise_sets_cause s c, enabled⟩

/-! ### Writes to INT_CAUSE and INT_ENABLE -/

theorem exec_intCause_next (s : State) (v : Word) : exec (.intCause v) s = .next (s.writeIntCause v) := rfl

theorem exec_intEnable_next (s : State) (v : Word) : exec (.intEnable v) s = .next (s.writeIntEnable v) := rfl

@[simp] theorem writeIntCause_intEnable (s : State) (v : Word) :
    (s.writeIntCause v).regs.intEnable = s.regs.intEnable := rfl

@[simp] theorem writeIntEnable_intCause (s : State) (v : Word) :
    (s.writeIntEnable v).regs.intCause = s.regs.intCause := rfl

/-! ### Power-on reset and RESET -/

theorem exec_powerOnReset_next (s : State) : exec .powerOnReset s = .next s.powerOn := rfl

theorem exec_reset_next (s : State) : exec .reset s = .next s.resetCommand := rfl

@[simp] theorem powerOn_regs (s : State) : s.powerOn.regs = Registers.reset := rfl

@[simp] theorem resetCommand_intCause (s : State) : s.resetCommand.regs.intCause = 0#6 := rfl

@[simp] theorem resetCommand_intEnable (s : State) : s.resetCommand.regs.intEnable = s.regs.intEnable := rfl

/-! ### The obligation -/

/-- Settles O11: a common bit of causes and enables is what the line reads, and each row is taken by what it leaves in
the two registers. -/
theorem irqFollowsCauses : Obligations.IrqFollowsCauses := by
  intro s
  refine ⟨irq_iff_enabled_cause s, fun c enabled => irq_raise_of_enabled enabled, ?_, ?_, ?_, ?_, ?_⟩
  · intro v t ran
    obtain rfl := Host.Outcome.next.inj ((exec_intCause_next s v).symm.trans ran)
    simpa using irq_iff_and_ne_zero (s.writeIntCause v)
  · intro v t ran
    obtain rfl := Host.Outcome.next.inj ((exec_intEnable_next s v).symm.trans ran)
    simpa using irq_iff_and_ne_zero (s.writeIntEnable v)
  · intro t ran
    obtain rfl := Host.Outcome.next.inj ((exec_powerOnReset_next s).symm.trans ran)
    exact ⟨irq_eq_false_of_no_cause rfl, rfl, rfl⟩
  · intro t ran
    obtain rfl := Host.Outcome.next.inj ((exec_reset_next s).symm.trans ran)
    exact ⟨irq_eq_false_of_no_cause (resetCommand_intCause s), resetCommand_intCause s, resetCommand_intEnable s⟩
  · exact fun w => irq_congr_regs rfl

end Sys2Proof.Proofs

/-! SUPPORT. RESET (R163): what the command sets in each part of the state, and that these are the values of reset. -/

namespace Sys2Proof.Proofs

open Sys2Proof.Machine Sys2Proof.Laws Sys2Proof.Safety

/-! ### What RESET sets and what it leaves, part by part -/

@[simp] theorem resetCommand_pending (s : State) : s.resetCommand.pending = s.pending := rfl
@[simp] theorem resetCommand_outside (s : State) : s.resetCommand.outside = s.outside := rfl
@[simp] theorem resetCommand_memory (s : State) : s.resetCommand.memory = s.memory := rfl
@[simp] theorem resetCommand_free (s : State) : s.resetCommand.free = s.free := rfl
@[simp] theorem resetCommand_port (s : State) : s.resetCommand.port = s.port.afterReset := rfl
@[simp] theorem resetCommand_session (s : State) : s.resetCommand.session = s.session.afterReset := rfl
@[simp] theorem resetCommand_sweeper (s : State) : s.resetCommand.sweeper = Sweeper.reset := rfl
@[simp] theorem resetCommand_sched (s : State) : s.resetCommand.sched = Scheduler.reset := rfl
@[simp] theorem resetCommand_director (s : State) : s.resetCommand.director = Director.reset := rfl
@[simp] theorem resetCommand_results (s : State) : s.resetCommand.results = ResultWriter.reset := rfl
@[simp] theorem resetCommand_header (s : State) : s.resetCommand.header = [] := rfl
@[simp] theorem resetCommand_standby (s : State) :
    s.resetCommand.standby = { wakeEnable := Four.all false, wake := false } := rfl

/-- AREA_BASE, INT_ENABLE and FAULT_INFO keep their values, no cause is left, and the read-back shows RESET done. -/
theorem resetCommand_regs (s : State) :
    s.resetCommand.regs =
      { s.regs with intCause := 0#6, readBack := { code := 7#4, result := .done, reason := .none } } := rfl

@[simp] theorem resetCommand_engine (s : State) (t : Trunk) : s.resetCommand.engine t = (s.engine t).afterReset :=
  get_of _ t

/-! ### The port: what is on the bus becomes an abandoned access (R181) -/

theorem portAfterReset_of_idle {p : Port} (idle : p.unit = none) : p.afterReset = p := by
  simp [Port.afterReset, idle]

theorem portAfterReset_of_unit {p : Port} {u : PortUnit} (busy : p.unit = some u) :
    p.afterReset = { unit := none, abandoned := some { access := u.access, timer := u.timer } } := by
  simp [Port.afterReset, busy]

@[simp] theorem portAfterReset_unit (p : Port) : p.afterReset.unit = none := by
  cases h : p.unit with
  | none => rw [portAfterReset_of_idle h, h]
  | some u => rw [portAfterReset_of_unit h]

/-! ### The session controller after RESET (R163) -/

@[simp] theorem sessionAfterReset_faultKind (c : Session) : c.afterReset.faultKind = c.faultKind := rfl
@[simp] theorem sessionAfterReset_number (c : Session) : c.afterReset.number = c.number := rfl

/-! ### Each block at the values of reset -/

theorem sessionAtReset_of_eq {s : State} {c : Session} (session : s.session = c.afterReset)
    (standby : s.standby = { wakeEnable := Four.all false, wake := false }) : SessionAtReset s := by
  simp [SessionAtReset, session, standby, Session.afterReset, Session.reset, Session.timeRuns]

theorem engineAtReset_afterReset (e : Engine) : EngineAtReset e.afterReset := by
  simp [EngineAtReset, Engine.afterReset, Engine.reset, Timing.default, Buffer.cleared, Engine.drives]

theorem sweeperAtReset_of_eq {s : State} (h : s.sweeper = Sweeper.reset) : SweeperAtReset s := by
  simp [SweeperAtReset, h, Sweeper.reset]

theorem schedulerAtReset_of_eq {s : State} (h : s.sched = Scheduler.reset) : SchedulerAtReset s := by
  simp [SchedulerAtReset, State.list, h, Scheduler.reset]

theorem directorAtReset_of_eq {s : State} (h : s.director = Director.reset) : DirectorAtReset s := by
  rw [DirectorAtReset, h]
  exact ⟨fun t => ⟨get_all Listen.reset t, get_all noDuplicates t⟩, rfl, rfl⟩

theorem resultsAtReset_of_eq {s : State} (results : s.results = ResultWriter.reset) (header : s.header = []) :
    ResultsAtReset s := by
  simp [ResultsAtReset, results, header, ResultWriter.reset, Tally.zero]

theorem blocksAtReset_resetCommand (s : State) : BlocksAtReset s.resetCommand := by
  refine ⟨?session, ?engines, ?sweeper, ?scheduler, ?director, ?results, ?port⟩
  case session => exact sessionAtReset_of_eq (resetCommand_session s) (resetCommand_standby s)
  case engines =>
    intro t
    rw [resetCommand_engine]
    exact engineAtReset_afterReset _
  case sweeper => exact sweeperAtReset_of_eq (resetCommand_sweeper s)
  case scheduler => exact schedulerAtReset_of_eq (resetCommand_sched s)
  case director => exact directorAtReset_of_eq (resetCommand_director s)
  case results => exact resultsAtReset_of_eq (resetCommand_results s) (resetCommand_header s)
  case port => rw [resetCommand_port, portAfterReset_unit]

/-! ### The obligation -/

/-- Settles O5: RESET answers `State.resetCommand` in every state, and what that sets is read off part by part; only the
port's part depends on the state, by whether an access is on the bus. -/
theorem resetCommand : Obligations.ResetCommand := by
  intro s
  refine ⟨s.resetCommand, exec_reset_next s, blocksAtReset_resetCommand s, resetCommand_regs s, ?_, ?_,
    resetCommand_memory s, ?_, ?_, resetCommand_pending s, resetCommand_outside s, resetCommand_free s⟩
  · rw [resetCommand_session, sessionAfterReset_faultKind]
  · rw [resetCommand_session, sessionAfterReset_number]
  · intro u busy
    rw [resetCommand_port, portAfterReset_of_unit busy]
  · intro idle
    rw [resetCommand_port, portAfterReset_of_idle idle]

end Sys2Proof.Proofs

/-! SUPPORT. What a step can do, said once: every row leaves the state as it is or makes one of the moves below, under
the guard that the row tests; a step makes a move, takes an input without a row, or lets one microsecond pass. -/

namespace Sys2Proof.Proofs

open Sys2Proof.Machine Sys2Proof.Laws Sys2Proof.Safety

/-! ### The moves -/

/-- The next states that a row can answer from `s`, each with the guard under which it does. -/
inductive Move (s : State) : State → Prop
  | stay : Move s s
  | refused (code : BitVec 4) (reason : RefusalReason) : Move s (s.refuse code reason)
  | startAccepted (idle : s.commandBusy = false) (st : s.session.state = .unset) : Move s s.acceptStart
  | pauseAccepted (idle : s.commandBusy = false) (st : s.session.state = .running) : Move s s.acceptPause
  | resumedFromPaused (idle : s.commandBusy = false) (st : s.session.state = .paused) : Move s s.resumeFromPaused
  | resumedFromStandby (idle : s.commandBusy = false) (st : s.session.state = .standby) : Move s s.resumeFromStandby
  | standbyAccepted (idle : s.commandBusy = false) (st : s.session.state = .running ∨ s.session.state = .paused) :
      Move s s.acceptStandby
  | stopAccepted (idle : s.commandBusy = false)
      (st : s.session.state = .running ∨ s.session.state = .paused ∨ s.session.state = .standby) : Move s s.acceptStop
  | reloadAccepted (idle : s.commandBusy = false) (st : s.session.state = .running ∨ s.session.state = .paused) :
      Move s s.acceptReload
  | reset : Move s s.resetCommand
  | poweredOn : Move s s.powerOn
  | sweepAsked (guard : s.sweeping = true) : Move s s.askSweep
  | registersWritten (r : Registers) : Move s (s.setRegs r)
  | synced : Move s ((((s.openSyncWindow.selectInWindow 0).selectInWindow 1).selectInWindow 2).selectInWindow 3)
  | windowClosed : Move s s.closeWindow
  | granted (r : Request) (free : s.portFree = true) (next : s.nextRequest = some r) : Move s (s.grant r)
  | completed (u : PortUnit) (inHand : s.port.unit = some u) : Move s (s.completeAccess u)
  | abandonedEnded (a : Abandoned) (onBus : s.port.abandoned = some a) : Move s s.endAbandoned
  | faulted (u : PortUnit) (k : FaultKind) (inHand : s.port.unit = some u) : Move s (s.enterFaulted u k)
  | settlingEnded (guard : s.settled = true) : Move s s.enterStandby
  | resumeEnded (guard : s.resultsResumed = true) : Move s s.endResume
  | stoppingEnded (guard : s.stopped = true) : Move s s.askFinal
  | holdExpired (t : Trunk) (guard : s.holdDue t = true) : Move s (s.holdExpires t)
  | edgeTaken (t : Trunk) (l : Level) (guard : (s.engine t).edgePossible l = true) : Move s (s.takeEdge t l)
  | replySettled (t : Trunk) (o : AttemptOutcome) (guard : (s.engine t).settled = some o) : Move s (s.settleReply t o)
  | replyClosed (t : Trunk) (guard : (s.engine t).replyCloseDue = true) : Move s (s.updateEngine t Engine.endFrame)
  | shapeTimed (t : Trunk) (guard : (s.engine t).shapeByTime = true) : Move s (s.shapeInSending t)
  | elementEnded (t : Trunk) (guard : (s.engine t).elementElapsed = true) : Move s (s.updateEngine t Engine.nextElement)
  | leadMarked (t : Trunk) (guard : (s.engine t).leadMarkDue = true) : Move s (s.updateEngine t Engine.beginReceiving)
  | malformedTimed (t : Trunk) (guard : (s.engine t).malformedByTime.isSome = true) : Move s (s.abandonFrame t)
  | answerBegun (t : Trunk) (guard : (s.engine t).answerStartDue = true) :
      Move s (s.updateEngine t (fun e => { e with pulse := .answer 0 }))
  | answerEnded (t : Trunk) (guard : (s.engine t).answerEndDue = true) :
      Move s (s.updateEngine t (fun e => { e with pulse := .answered }))
  | foreignEnded (t : Trunk) (guard : (s.engine t).foreignCloseDue = true) : Move s (s.foreignFrameEnds t)
  | stuck (t : Trunk) (guard : (s.engine t).stuckDue = true) : Move s (s.stuckEvent t)
  | recovered (t : Trunk) (guard : (s.engine t).recoveryDue = true) : Move s (s.recoverTrunk t)
  | timingTaken (t : Trunk) (guard : (s.engine t).timingDue = true) : Move s (s.takeTiming t)
  | trunkOff (t : Trunk) (guard : (s.engine t).offDue = true) : Move s (s.trunkGoesOff t)
  | restEnded (i : Nat) (t : Trunk) (e : Entry) (found : s.pendingEntry i = some (t, e)) (guard : s.restDue e = true) :
      Move s (s.endRest t i)
  | expired (i : Nat) (t : Trunk) (e : Entry) (found : s.pendingEntry i = some (t, e)) (guard : s.expiryDue e = true) :
      Move s (s.expireEntry t e)
  | dueTime (i : Nat) (r : RepeatEntry) (found : s.findRepeat i = some r) (guard : s.dueTimeDue r = true) :
      Move s (s.dueTimeOf r)
  | roundJoined (t : Trunk) : Move s (s.joinRound t)

/-! ### Each row makes a move -/

/-- What a command other than RESET needs to be accepted (R155). -/
theorem refusal_none {s : State} {c : Command} (h : s.refusal c = none) :
    s.commandBusy = false ∧ c.allowedIn s.session.state = true := by
  unfold State.refusal at h
  cases hb : s.commandBusy with
  | true => rw [if_pos hb] at h; cases h
  | false =>
    rw [if_neg (by simp [hb])] at h
    cases ha : c.allowedIn s.session.state with
    | true => exact ⟨rfl, rfl⟩
    | false => rw [if_pos (by simp [ha])] at h; cases h

theorem decideCommand_move {s : State} {c : Command} {f : State → State}
    (accepted : s.commandBusy = false → c.allowedIn s.session.state = true → Move s (f s)) :
    Move s (s.decideCommand c f) := by
  unfold State.decideCommand
  split
  · exact .refused _ _
  · rename_i h
    exact accepted (refusal_none h).1 (refusal_none h).2

theorem actOn_move (s : State) (c : Command) : Move s (s.actOn c) := by
  cases c with
  | start =>
    refine decideCommand_move fun idle allowed => .startAccepted idle ?_
    revert allowed; cases s.session.state <;> simp [Command.allowedIn]
  | pause =>
    refine decideCommand_move fun idle allowed => .pauseAccepted idle ?_
    revert allowed; cases s.session.state <;> simp [Command.allowedIn]
  | resume =>
    refine decideCommand_move fun idle allowed => ?_
    have st : s.session.state = .paused ∨ s.session.state = .standby := by
      revert allowed; cases s.session.state <;> simp [Command.allowedIn]
    unfold State.acceptResume
    rcases st with st | st
    · rw [if_neg (by simp [st])]
      exact .resumedFromPaused idle st
    · rw [if_pos st]
      exact .resumedFromStandby idle st
  | standby =>
    refine decideCommand_move fun idle allowed => .standbyAccepted idle ?_
    revert allowed; cases s.session.state <;> simp [Command.allowedIn]
  | stop =>
    refine decideCommand_move fun idle allowed => .stopAccepted idle ?_
    revert allowed; cases s.session.state <;> simp [Command.allowedIn]
  | reload =>
    refine decideCommand_move fun idle allowed => .reloadAccepted idle ?_
    revert allowed; cases s.session.state <;> simp [Command.allowedIn]
  | reset => exact .reset

theorem writeCommand_move (s : State) (code : BitVec 4) : Move s (s.writeCommand code) := by
  unfold State.writeCommand
  split
  · exact actOn_move s _
  · exact .refused _ _

theorem writeSweep_move (s : State) : Move s s.writeSweep := by
  unfold State.writeSweep
  split
  · exact .sweepAsked ‹_›
  · exact .stay

theorem writeRegister_move (s : State) (offset : Nat) (v : Word) : Move s (s.writeRegister offset v) := by
  unfold State.writeRegister
  split
  · exact writeCommand_move s _
  · exact .registersWritten _
  · exact writeSweep_move s
  · exact .registersWritten _
  · exact .registersWritten _
  · exact .stay

theorem completeAs_move (s : State) (role : Role) : Move s (s.completeAs role) := by
  unfold State.completeAs
  split
  · exact .stay
  · split
    · exact .completed _ ‹_›
    · exact .stay

theorem endAbandoned_move (s : State) : Move s s.endAbandoned := by
  cases h : s.port.abandoned with
  | none =>
    have : s.endAbandoned = s := by unfold State.endAbandoned; rw [h]
    rw [this]
    exact .stay
  | some a => exact .abandonedEnded a h

theorem accessCompletes_move (s : State) : Move s s.accessCompletes := by
  unfold State.accessCompletes
  split
  · exact endAbandoned_move s
  · split
    · exact .completed _ ‹_›
    · exact .stay

theorem accessFails_move (s : State) : Move s s.accessFails := by
  unfold State.accessFails
  split
  · exact endAbandoned_move s
  · split
    · exact .faulted _ _ ‹_›
    · exact .stay

theorem accessTimesOut_move (s : State) : Move s s.accessTimesOut := by
  unfold State.accessTimesOut
  split
  · exact .stay
  · split
    · exact .faulted _ _ ‹_›
    · exact .stay

theorem edgeWith_move (s : State) (t : Trunk) (v : Verdict) : Move s (s.edgeWith t v) := by
  unfold State.edgeWith
  split
  · rename_i h
    exact .edgeTaken t _ (Bool.and_elim_left h)
  · exact .stay

/-- A move under a guard, else nothing. -/
theorem move_ite {s v : State} {b : Bool} (h : b = true → Move s v) : Move s (if b then v else s) := by
  split
  · exact h ‹_›
  · exact .stay

/-- What SHAPE answers: the edge that shows it, the time limit, or nothing. -/
theorem shape_move (s : State) (t : Trunk) :
    Move s (if (s.engine t).edgeShows .shape && ((s.engine t).edgeDue || !(s.engine t).shapeByTime) then
      s.takeEdge t (otherLevel (s.engine t).level)
      else if (s.engine t).shapeByTime then s.shapeInSending t else s) := by
  split
  · rename_i h
    exact .edgeTaken t _ (Bool.and_elim_left (Bool.and_elim_left h))
  · exact move_ite (.shapeTimed t)

/-- What MALFORMED answers: the edge that shows it, the time limit, or nothing. -/
theorem malformed_move (s : State) (t : Trunk) :
    Move s (if (s.engine t).edgeMalformed && ((s.engine t).edgeDue || (s.engine t).malformedByTime.isNone) then
      s.takeEdge t (otherLevel (s.engine t).level)
      else if (s.engine t).malformedByTime.isSome then s.abandonFrame t else s) := by
  split
  · rename_i h
    exact .edgeTaken t _ (Bool.and_elim_left (Bool.and_elim_left h))
  · exact move_ite (.malformedTimed t)

/-- Every row answers a next state, and that is one of the moves. -/
theorem exec_move (c : Instr) (s : State) : ∃ v, exec c s = .next v ∧ Move s v := by
  cases c with
  | start => exact ⟨_, rfl, actOn_move s .start⟩
  | pause => exact ⟨_, rfl, actOn_move s .pause⟩
  | resume => exact ⟨_, rfl, actOn_move s .resume⟩
  | standby => exact ⟨_, rfl, actOn_move s .standby⟩
  | stop => exact ⟨_, rfl, actOn_move s .stop⟩
  | reload => exact ⟨_, rfl, actOn_move s .reload⟩
  | reset => exact ⟨_, rfl, .reset⟩
  | unknownCommand code => exact ⟨_, rfl, writeCommand_move s code⟩
  | sweep v => exact ⟨_, rfl, writeSweep_move s⟩
  | intCause v => exact ⟨_, rfl, .registersWritten _⟩
  | intEnable v => exact ⟨_, rfl, .registersWritten _⟩
  | registerWrite o v => exact ⟨_, rfl, writeRegister_move s o v⟩
  | powerOnReset => exact ⟨_, rfl, .poweredOn⟩
  | syncEdge => exact ⟨_, rfl, .synced⟩
  | windowClose => exact ⟨_, rfl, move_ite fun _ => .windowClosed⟩
  | sweepTimerExpiry =>
    exact ⟨_, rfl, move_ite fun h => .sweepAsked (Bool.and_elim_left (Bool.and_elim_left h))⟩
  | word0ReadDone => exact ⟨_, rfl, completeAs_move s _⟩
  | envelopeReadDone => exact ⟨_, rfl, completeAs_move s _⟩
  | word1ReadDone => exact ⟨_, rfl, completeAs_move s _⟩
  | claimWriteDone => exact ⟨_, rfl, completeAs_move s _⟩
  | portGrant =>
    refine ⟨_, rfl, ?_⟩
    split
    · split
      · exact .granted _ ‹_› ‹_›
      · exact .stay
    · exact .stay
  | accessComplete => exact ⟨_, rfl, accessCompletes_move s⟩
  | stateWriteDone => exact ⟨_, rfl, completeAs_move s _⟩
  | countWriteDone => exact ⟨_, rfl, completeAs_move s _⟩
  | roundResultDone => exact ⟨_, rfl, completeAs_move s _⟩
  | giveBackDone => exact ⟨_, rfl, completeAs_move s _⟩
  | startReadsDone => exact ⟨_, rfl, completeAs_move s _⟩
  | startUnitDone => exact ⟨_, rfl, completeAs_move s _⟩
  | reloadReadsDone => exact ⟨_, rfl, completeAs_move s _⟩
  | sweepEndUnitDone => exact ⟨_, rfl, completeAs_move s _⟩
  | accessError => exact ⟨_, rfl, accessFails_move s⟩
  | accessTimeout => exact ⟨_, rfl, accessTimesOut_move s⟩
  | abandonedAccessEnd => exact ⟨_, rfl, endAbandoned_move s⟩
  | settlingEnd => exact ⟨_, rfl, move_ite .settlingEnded⟩
  | resumeResultsDone => exact ⟨_, rfl, move_ite .resumeEnded⟩
  | stoppingEnd => exact ⟨_, rfl, move_ite .stoppingEnded⟩
  | stopFinalUnitDone => exact ⟨_, rfl, completeAs_move s _⟩
  | holdExpiry t => exact ⟨_, rfl, move_ite (.holdExpired t)⟩
  | tailReached t => exact ⟨_, rfl, edgeWith_move s t _⟩
  | replySettled t =>
    refine ⟨_, rfl, ?_⟩
    split
    · exact .replySettled t _ ‹_›
    · exact .stay
  | replyWindowClose t => exact ⟨_, rfl, move_ite (.replyClosed t)⟩
  | lost t => exact ⟨_, rfl, edgeWith_move s t _⟩
  | shape t => exact ⟨_, rfl, shape_move s t⟩
  | leadMark t => exact ⟨_, rfl, move_ite (.leadMarked t)⟩
  | malformed t => exact ⟨_, rfl, malformed_move s t⟩
  | goodFrame t => exact ⟨_, rfl, edgeWith_move s t _⟩
  | answerPulseStart t => exact ⟨_, rfl, move_ite (.answerBegun t)⟩
  | answerPulseEnd t => exact ⟨_, rfl, move_ite (.answerEnded t)⟩
  | foreignFrameEnded t => exact ⟨_, rfl, move_ite (.foreignEnded t)⟩
  | stuck t => exact ⟨_, rfl, move_ite (.stuck t)⟩
  | stuckRecovery t => exact ⟨_, rfl, move_ite (.recovered t)⟩
  | timingTakesEffect t => exact ⟨_, rfl, move_ite (.timingTaken t)⟩
  | trunkOff t => exact ⟨_, rfl, move_ite (.trunkOff t)⟩
  | restEnd i =>
    refine ⟨_, rfl, ?_⟩
    split
    · exact move_ite (.restEnded i _ _ ‹_›)
    · exact .stay
  | expiry i =>
    refine ⟨_, rfl, ?_⟩
    split
    · exact move_ite (.expired i _ _ ‹_›)
    · exact .stay
  | dueTime i =>
    refine ⟨_, rfl, ?_⟩
    split
    · exact move_ite (.dueTime i _ ‹_›)
    · exact .stay
  | roundJoin t => exact ⟨_, rfl, .roundJoined t⟩
  | recognisedEdge t l => exact ⟨_, rfl, move_ite (.edgeTaken t l)⟩
  | markOrGapLengthElapsed t => exact ⟨_, rfl, move_ite (.elementEnded t)⟩

/-! ### Every step keeps what every move keeps -/

/-- An invariant that the moves keep, that the queues of inputs do not enter, and that inputs without a row and the
passing of a microsecond keep, is kept by every step. -/
theorem step_keeps {P : State → Prop} (moves : ∀ s v, P s → Move s v → P v)
    (queues : ∀ (s : State) (p : List Instr) (o : List (Nat × Outside)), P s → P { s with pending := p, outside := o })
    (host : ∀ (s : State) (a : Word) (bs : List Byte), P s → P (s.setMemory (Memory.writeBytes s.memory a bs)))
    (wire : ∀ (s : State) (t : Trunk) (low : Bool), P s → P (s.updateEngine t (fun e => e.pulled low)))
    (time : ∀ s, P s → P s.tick) (s : State) (h : P s) : OnNext (step s) P := by
  have ran : ∀ (c : Instr) (r : State), P r → OnNext (exec c r) P := by
    intro c r hr v hv
    obtain ⟨w, hw, hm⟩ := exec_move c r
    obtain rfl := Host.Outcome.next.inj (hw.symm.trans hv)
    exact moves r w hr hm
  unfold step
  split
  · exact ran _ _ (queues s _ s.outside h)
  · unfold State.idleStep
    split
    · exact ran _ s h
    · split
      · rename_i x r hin
        intro v hv
        obtain rfl := Host.Outcome.next.inj hv
        have hr : ∃ o, r = { s with pending := s.pending, outside := o } := by
          unfold State.outsideNow at hin
          split at hin
          · cases hin
          · cases hin; exact ⟨_, rfl⟩
          · cases hin
        obtain ⟨o, rfl⟩ := hr
        have hr := queues s s.pending o h
        cases x with
        | memoryWrite a bs => exact host _ a bs hr
        | pull t => exact wire _ t true hr
        | letGo t => exact wire _ t false hr
        | send c => exact queues _ _ o hr
      · split
        · exact ran _ s h
        · intro v hv
          obtain rfl := Host.Outcome.next.inj hv
          exact time s h

end Sys2Proof.Proofs

/-! SUPPORT. The canonical form of system memory (log 8): only the completion of an access, its failure and its
abandonment write to memory, each through a write that keeps the form. -/

namespace Sys2Proof.Proofs

open Sys2Proof.Machine Sys2Proof.Laws Sys2Proof.Safety

theorem landWrite_port (s : State) (a : Access) : (s.landWrite a).port = s.port := by
  unfold State.landWrite
  split <;> rfl

theorem wf_completeAccess (s : State) (u : PortUnit) (h : Memory.wf s.memory) :
    Memory.wf (s.completeAccess u).memory := by
  rw [(completeAccess_memory s u).1]
  exact wf_landWrite s _ h

theorem wf_endAbandoned (s : State) (h : Memory.wf s.memory) : Memory.wf s.endAbandoned.memory := by
  unfold State.endAbandoned
  split
  · exact h
  · exact wf_landPerhaps s _ h

/-- Entry to FAULTED writes memory by the failed access alone. -/
theorem enterFaulted_memory (s : State) (u : PortUnit) (k : FaultKind) :
    (s.enterFaulted u k).memory = (s.landPerhaps u.access).memory := by
  unfold State.enterFaulted State.cutCommand
  dsimp only
  split <;> rfl

theorem wf_powerOn (s : State) (h : Memory.wf s.memory) : Memory.wf s.powerOn.memory := by
  show Memory.wf s.dropAccess.memory
  unfold State.dropAccess
  split
  · exact wf_landPerhaps s _ h
  · split
    · exact wf_landPerhaps s _ h
    · exact h

theorem bus_synced (s : State) :
    SameBus s ((((s.openSyncWindow.selectInWindow 0).selectInWindow 1).selectInWindow 2).selectInWindow 3) :=
  bus_trans (s := s.openSyncWindow) (bus_refl s) (bus_of_keeps (keeps_trans (keeps_trans (keeps_trans (keeps_selectInWindow s.openSyncWindow 0)
    (keeps_selectInWindow _ 1)) (keeps_selectInWindow _ 2)) (keeps_selectInWindow _ 3)))

theorem grant_memory (s : State) (r : Request) : (s.grant r).memory = s.memory := by
  unfold State.grant State.numberUnit
  split <;> rfl

theorem move_keeps_memoryCanonical (s v : State) (h : MemoryCanonical s) (m : Move s v) : MemoryCanonical v := by
  have bus : ∀ {v : State}, SameBus s v → MemoryCanonical v := fun k => by rw [MemoryCanonical, k.1]; exact h
  cases m with
  | stay => exact h
  | refused code reason => exact bus (bus_refuse s code reason)
  | startAccepted => exact h
  | pauseAccepted => exact h
  | resumedFromPaused => exact h
  | resumedFromStandby => exact bus (bus_resumeFromStandby s)
  | standbyAccepted => exact h
  | stopAccepted => exact bus (bus_acceptStop s)
  | reloadAccepted => exact h
  | reset => exact h
  | poweredOn => exact wf_powerOn s h
  | sweepAsked => exact bus (bus_askSweep s)
  | registersWritten => exact h
  | synced => exact bus (bus_synced s)
  | windowClosed => exact h
  | granted r =>
    rw [MemoryCanonical, grant_memory]
    exact h
  | completed u => exact wf_completeAccess s u h
  | abandonedEnded => exact wf_endAbandoned s h
  | faulted u k =>
    rw [MemoryCanonical, enterFaulted_memory]
    exact wf_landPerhaps s _ h
  | settlingEnded => exact bus (bus_enterStandby s)
  | resumeEnded => exact bus (bus_endResume s)
  | stoppingEnded => exact h
  | holdExpired t => exact bus (bus_of_keeps (keeps_holdExpires s t))
  | edgeTaken t l => exact bus (bus_of_same (same_takeEdge s t l))
  | replySettled t o => exact bus (bus_of_keeps (keeps_settleReply s t o))
  | replyClosed => exact h
  | shapeTimed t => exact bus (bus_of_keeps (keeps_shapeInSending s t))
  | elementEnded => exact h
  | leadMarked => exact h
  | malformedTimed t => exact bus (bus_of_keeps (keeps_abandonFrame s t))
  | answerBegun => exact h
  | answerEnded => exact h
  | foreignEnded t => exact bus (bus_of_keeps (keeps_foreignFrameEnds s t))
  | stuck => exact h
  | recovered => exact h
  | timingTaken => exact h
  | trunkOff t => exact bus (bus_of_keeps (keeps_trunkGoesOff s t))
  | restEnded i t => exact bus (bus_of_keeps (keeps_endRest s t i))
  | expired i t e => exact bus (bus_of_keeps (keeps_expireEntry s t e))
  | dueTime i r => exact bus (bus_of_keeps (keeps_dueTimeOf s r))
  | roundJoined t => exact bus (bus_of_keeps (keeps_joinRound s t))

/-! ### What a microsecond leaves (log 4) -/

theorem tickTime_eq (s : State) : ∃ (d : Word) (m k : Nat),
    s.tickTime = { s with
      session := { s.session with deviceTime := d, micros := m }, sweeper := { s.sweeper with timer := k } } := by
  unfold State.tickTime
  split
  · split
    · exact ⟨s.session.deviceTime + 1, 0, _, rfl⟩
    · exact ⟨s.session.deviceTime, s.session.micros + 1, s.sweeper.timer, rfl⟩
  · exact ⟨s.session.deviceTime, s.session.micros, s.sweeper.timer, rfl⟩

theorem tickOutside_eq (s : State) : ∃ o, s.tickOutside = { s with outside := o } := by
  unfold State.tickOutside
  split
  · exact ⟨s.outside, rfl⟩
  · exact ⟨_, rfl⟩

/-- A microsecond changes the engines' clocks, times and timers of the session, the sweeper and the port, and the wait
of the next input, and nothing else. -/
theorem tick_eq (s : State) : ∃ (d : Word) (m k : Nat) (o : List (Nat × Outside)),
    s.tick = { s with
      engines := Four.of (fun t => (s.engine t).tick)
      session := { s.session with deviceTime := d, micros := m, window := s.session.window.map (fun w => w - 1) }
      sweeper := { s.sweeper with timer := k }
      port :=
        { unit := s.port.unit.map (fun u => { u with timer := u.timer + 1 })
          abandoned := s.port.abandoned.map (fun a => { a with timer := a.timer + 1 }) }
      outside := o } := by
  unfold State.tick
  obtain ⟨d, m, k, h⟩ := tickTime_eq s.tickEngines.tickWindow
  obtain ⟨o, ho⟩ := tickOutside_eq s.tickEngines.tickWindow.tickTime.tickPort
  rw [ho, h]
  exact ⟨d, m, k, o, rfl⟩

/-! ### The obligations -/

/-- Settles O56: every move writes memory through the completion, failure or abandonment of an access, which keep the
canonical form, and so does a write of the host; no other input and no microsecond touches memory. -/
theorem stepKeepsMemoryCanonical : Obligations.StepKeepsMemoryCanonical := by
  intro s h
  refine step_keeps move_keeps_memoryCanonical (fun _ _ _ k => k) (fun r a bs k => wf_writeBytes bs r.memory k a)
    (fun _ _ _ k => k) (fun r k => ?_) s h
  obtain ⟨d, m, n, o, ht⟩ := tick_eq r
  rw [ht]
  exact k

/-- Settles O1: `step` is defined by the front of the queue. -/
theorem stepRunsFrontCommand : Obligations.StepRunsFrontCommand := by
  intro c rest s h
  unfold step
  rw [h]
  rfl

end Sys2Proof.Proofs

/-! SUPPORT. What the operations of the send scheduler on one trunk change: the trunk's list, its armed entry, the repeat
table and the completion queue. One relation says so, and one lemma for each operation. -/

namespace Sys2Proof.Proofs

open Sys2Proof.Machine Sys2Proof.Laws Sys2Proof.Safety

/-! ### The relation -/

/-- An engine after arming or withdrawal: only the armed entry differs, and at rest IDLE or HOLDING (R28). -/
def Rearmed (e g : Engine) : Prop :=
  g = { e with armed := g.armed, state := g.state } ∧ (g.state = e.state ∨ (e.state.atRest = true ∧ g.state.atRest = true))

/-- A list in class order (R82). -/
abbrev ClassOrdered (l : List Entry) : Prop := l.Pairwise (fun x y => x.copy.cls.code ≤ y.copy.cls.code)

/-- From `s` to `v` the send scheduler has worked on trunk `t`: what it leaves alone, and what it keeps. -/
structure SendsOn (t : Trunk) (s v : State) : Prop where
  elsewhere : SameElsewhereAndStandby s v
  regs : v.regs = s.regs
  director : v.director = s.director
  results : v.results = { s.results with queue := v.results.queue }
  windowMode : v.sched.windowMode = s.sched.windowMode
  backoff : v.sched.backoff = s.sched.backoff
  others : OtherTrunksSame s v t
  engine : Rearmed (s.engine t) (v.engine t)
  order : ClassOrdered (s.list t) → ClassOrdered (v.list t)

theorem rearmed_refl (e : Engine) : Rearmed e e := ⟨rfl, .inl rfl⟩

theorem rearmed_trans {e g h : Engine} (a : Rearmed e g) (b : Rearmed g h) : Rearmed e h := by
  obtain ⟨ha, hs⟩ := a
  obtain ⟨hb, ht⟩ := b
  refine ⟨?_, ?_⟩
  · rw [hb, ha]
  · rcases hs with hs | ⟨hs, hs'⟩
    · rw [← hs]
      exact ht
    · rcases ht with ht | ⟨_, ht⟩
      · exact .inr ⟨hs, by rw [ht]; exact hs'⟩
      · exact .inr ⟨hs, ht⟩

theorem sendsOn_refl (t : Trunk) (s : State) : SendsOn t s s :=
  ⟨keeps_refl s, rfl, rfl, rfl, rfl, rfl, fun _ _ => ⟨rfl, rfl⟩, rearmed_refl _, id⟩

theorem sendsOn_trans {t : Trunk} {r s v : State} (h : SendsOn t r s) (k : SendsOn t s v) : SendsOn t r v where
  elsewhere := keeps_trans h.elsewhere k.elsewhere
  regs := k.regs.trans h.regs
  director := k.director.trans h.director
  results := by rw [k.results, h.results]
  windowMode := k.windowMode.trans h.windowMode
  backoff := k.backoff.trans h.backoff
  others := fun o ne => ⟨(k.others o ne).1.trans (h.others o ne).1, (k.others o ne).2.trans (h.others o ne).2⟩
  engine := rearmed_trans h.engine k.engine
  order := k.order ∘ h.order

/-- The scheduler is live, and sees the same clock, in a state with the same session. -/
theorem SendsOn.session {t : Trunk} {s v : State} (h : SendsOn t s v) : v.session = s.session := h.elsewhere.1.2.1

theorem SendsOn.sweeper {t : Trunk} {s v : State} (h : SendsOn t s v) : v.sweeper = s.sweeper := h.elsewhere.1.2.2.2.1

theorem SendsOn.port {t : Trunk} {s v : State} (h : SendsOn t s v) : v.port = s.port := h.elsewhere.1.2.2.1

/-! ### Class order -/

theorem classOrdered_map {f : Entry → Entry} (hf : ∀ e, (f e).copy = e.copy) {l : List Entry} (h : ClassOrdered l) :
    ClassOrdered (l.map f) := by
  rw [ClassOrdered, List.pairwise_map]
  simpa only [hf] using h

theorem classOrdered_filter (p : Entry → Bool) {l : List Entry} (h : ClassOrdered l) : ClassOrdered (l.filter p) :=
  List.Pairwise.filter p h

theorem disarmed_copy (e : Entry) : e.disarmed.copy = e.copy := by
  unfold Entry.disarmed
  split <;> rfl

/-- Where one is put in before the first of a higher class, the list keeps its order (R84). -/
theorem joinList_eq (e : Entry) (l : List Entry) (h : ClassOrdered l) :
    joinList e l = l.filter (fun x => decide (x.copy.cls.code ≤ e.copy.cls.code)) ++
      e :: l.filter (fun x => decide (e.copy.cls.code < x.copy.cls.code)) := by
  unfold joinList
  induction l with
  | nil => rfl
  | cons x xs ih =>
    rw [ClassOrdered, List.pairwise_cons] at h
    simp only [insertBefore]
    by_cases hx : x.copy.cls.code ≤ e.copy.cls.code
    · have hn : ¬ e.copy.cls.code < x.copy.cls.code := by omega
      simp [hx, hn, ih h.2]
    · have hlow : xs.filter (fun y => decide (y.copy.cls.code ≤ e.copy.cls.code)) = [] := by
        rw [List.filter_eq_nil_iff]
        intro y hy
        have := h.1 y hy
        simp; omega
      have hhigh : xs.filter (fun y => decide (e.copy.cls.code < y.copy.cls.code)) = xs := by
        rw [List.filter_eq_self]
        intro y hy
        have := h.1 y hy
        simp; omega
      have hp : e.copy.cls.code < x.copy.cls.code := by omega
      simp [hx, hp, hlow, hhigh]

theorem classOrdered_joinList (e : Entry) (l : List Entry) (h : ClassOrdered l) : ClassOrdered (joinList e l) := by
  rw [joinList_eq e l h, ClassOrdered, List.pairwise_append, List.pairwise_cons]
  refine ⟨classOrdered_filter _ h, ⟨fun y hy => ?_, classOrdered_filter _ h⟩, fun x hx y hy => ?_⟩
  · have := of_decide_eq_true (List.mem_filter.1 hy).2
    omega
  · have hx := of_decide_eq_true (List.mem_filter.1 hx).2
    rcases List.mem_cons.1 hy with rfl | hy
    · exact hx
    · have := of_decide_eq_true (List.mem_filter.1 hy).2
      omega

/-! ### Updates of one part -/

theorem sendsOn_setEngine {t : Trunk} {s : State} {e : Engine} (h : Rearmed (s.engine t) e) :
    SendsOn t s (s.setEngine t e) where
  elsewhere := keeps_setEngine s t e
  regs := rfl
  director := rfl
  results := rfl
  windowMode := rfl
  backoff := rfl
  others := fun o ne => ⟨engine_setEngine_other s t o e ne, rfl⟩
  engine := by rwa [engine_setEngine_same]
  order := id

theorem sendsOn_setList {t : Trunk} {s : State} {l : List Entry} (h : ClassOrdered (s.list t) → ClassOrdered l) :
    SendsOn t s (s.setList t l) where
  elsewhere := keeps_setList s t l
  regs := rfl
  director := rfl
  results := rfl
  windowMode := rfl
  backoff := rfl
  others := fun o ne => ⟨rfl, list_setList_other s t o l ne⟩
  engine := rearmed_refl _
  order := by rwa [list_setList_same]

/-- The scheduler's part replaced by one with the same lists and the same settings. -/
theorem sendsOn_setSched (t : Trunk) {s : State} {x : Scheduler} (lists : x.lists = s.sched.lists)
    (windowMode : x.windowMode = s.sched.windowMode) (backoff : x.backoff = s.sched.backoff) :
    SendsOn t s (s.setSched x) where
  elsewhere := keeps_setSched s x
  regs := rfl
  director := rfl
  results := rfl
  windowMode := windowMode
  backoff := backoff
  others := fun o _ => ⟨rfl, congrArg (fun q : Four (List Entry) => q.get o) lists⟩
  engine := rearmed_refl _
  order := by
    have : (s.setSched x).list t = s.list t := congrArg (fun q : Four (List Entry) => q.get t) lists
    rw [this]
    exact id

theorem sendsOn_setQueue (t : Trunk) (s : State) (q : List Work) : SendsOn t s (s.setQueue q) :=
  ⟨keeps_setQueue s q, rfl, rfl, rfl, rfl, rfl, fun _ _ => ⟨rfl, rfl⟩, rearmed_refl _, id⟩

theorem sendsOn_setRepeats (t : Trunk) (s : State) (l : List RepeatEntry) : SendsOn t s (s.setRepeats l) :=
  sendsOn_setSched t rfl rfl rfl

theorem sendsOn_updateRepeat (t : Trunk) (s : State) (i : Nat) (f : RepeatEntry → RepeatEntry) :
    SendsOn t s (s.updateRepeat i f) := sendsOn_setRepeats t s _

theorem sendsOn_updateEntry (t : Trunk) (s : State) (i : Nat) {f : Entry → Entry} (hf : ∀ e, (f e).copy = e.copy) :
    SendsOn t s (s.updateEntry t i f) := by
  refine sendsOn_setList fun h => classOrdered_map (fun e => ?_) h
  split
  · exact hf e
  · rfl

theorem sendsOn_setOffDone (t o : Trunk) (s : State) (b : Bool) : SendsOn t s (s.setOffDone o b) :=
  sendsOn_setSched t rfl rfl rfl

theorem sendsOn_setOffOwed (t o : Trunk) (s : State) (b : Bool) : SendsOn t s (s.setOffOwed o b) :=
  sendsOn_setSched t rfl rfl rfl

/-! ### Arming and selection -/

theorem rearmed_withdraw (e : Engine) : Rearmed e e.withdraw := by
  refine ⟨rfl, ?_⟩
  unfold Engine.withdraw
  by_cases h : e.state = .holding
  · exact .inr (by simp [h, EngineState.atRest])
  · exact .inl (if_neg h)

theorem rearmed_arm (e : Engine) (i : Nat) (c : FrameClass) (r : Bool) : Rearmed e (e.arm i c r) := by
  refine ⟨rfl, ?_⟩
  unfold Engine.arm
  by_cases h : e.state = .idle
  · exact .inr (by simp [h, EngineState.atRest])
  · exact .inl (if_neg h)

theorem sendsOn_withdraw (s : State) (t : Trunk) : SendsOn t s (s.withdraw t) := by
  unfold State.withdraw
  split
  · exact sendsOn_refl t s
  · exact sendsOn_trans (sendsOn_setEngine (rearmed_withdraw _)) (sendsOn_setList (classOrdered_map disarmed_copy))

theorem sendsOn_armEntry (s : State) (t : Trunk) (e : Entry) : SendsOn t s (s.armEntry t e) := by
  refine sendsOn_trans (sendsOn_setEngine (rearmed_arm _ _ _ _)) (sendsOn_setList fun h => ?_)
  refine classOrdered_map (fun x => ?_) (classOrdered_map disarmed_copy h)
  split <;> rfl

theorem sendsOn_select (s : State) (t : Trunk) : SendsOn t s (s.select t) := by
  unfold State.select
  split
  · split
    · exact sendsOn_withdraw s t
    · split
      · exact sendsOn_refl t s
      · exact sendsOn_armEntry s t _
  · exact sendsOn_refl t s

/-! ### Finishing -/

theorem sendsOn_removeEntry (s : State) (t : Trunk) (i : Nat) : SendsOn t s (s.removeEntry t i) := by
  unfold State.removeEntry
  dsimp only
  split
  · exact sendsOn_trans (sendsOn_setList (classOrdered_filter _)) (sendsOn_setEngine (rearmed_withdraw _))
  · exact sendsOn_setList (classOrdered_filter _)

theorem sendsOn_endRepeat (t : Trunk) (s : State) (r : RepeatEntry) (c : ResultCode) (g : Figures) (w : Word) :
    SendsOn t s (s.endRepeat r c g w) := sendsOn_trans (sendsOn_setRepeats t s _) (sendsOn_setQueue t _ _)

theorem sendsOn_roundEnded (t : Trunk) (s : State) (i : Nat) (c : ResultCode) (g : Figures) (w : Word) :
    SendsOn t s (s.roundEnded i c g w) := by
  unfold State.roundEnded
  split
  · exact sendsOn_refl t s
  · dsimp only
    repeat' split
    · exact sendsOn_endRepeat t s _ _ _ _
    · exact sendsOn_endRepeat t s _ _ _ _
    · exact sendsOn_trans (sendsOn_updateRepeat t s _ _) (sendsOn_setQueue t _ _)
    · exact sendsOn_endRepeat t s _ _ _ _

theorem sendsOn_handOn (t : Trunk) (s : State) (e : Entry) (c : ResultCode) (w : Word) : SendsOn t s (s.handOn e c w) := by
  unfold State.handOn
  split
  · exact sendsOn_roundEnded t s _ _ _ _
  · exact sendsOn_setQueue t s _

theorem sendsOn_finishEntry (s : State) (t : Trunk) (e : Entry) (c : ResultCode) (w : Word) :
    SendsOn t s (s.finishEntry t e c w) := sendsOn_trans (sendsOn_removeEntry s t _) (sendsOn_handOn t _ _ _ _)

theorem sendsOn_handOnAll (t : Trunk) (c : ResultCode) (w : Word) (l : List Entry) (s : State) :
    SendsOn t s (handOnAll c w l s) := by
  induction l generalizing s with
  | nil => exact sendsOn_refl t s
  | cons e es ih => exact sendsOn_trans (sendsOn_handOn t s e c w) (ih _)

theorem sendsOn_endRepeats (t : Trunk) (c : ResultCode) (w : Word) (l : List RepeatEntry) (s : State) :
    SendsOn t s (endRepeats c w l s) := by
  induction l generalizing s with
  | nil => exact sendsOn_refl t s
  | cons r rs ih => exact sendsOn_trans (sendsOn_endRepeat t s r c _ w) (ih _)

theorem sendsOn_finishTrunk (s : State) (t : Trunk) (c : ResultCode) (w : Word) : SendsOn t s (s.finishTrunk t c w) := by
  unfold State.finishTrunk
  have emptied : SendsOn t s ((s.withdraw t).setList t []) :=
    sendsOn_trans (sendsOn_withdraw s t) (sendsOn_setList fun _ => List.Pairwise.nil)
  exact sendsOn_trans (sendsOn_trans emptied (sendsOn_handOnAll t c w _ _)) (sendsOn_endRepeats t c w _ _)

theorem sendsOn_trunkOffProcessing (s : State) (t : Trunk) : SendsOn t s (s.trunkOffProcessing t) :=
  sendsOn_trans (sendsOn_setOffDone t t s true) (sendsOn_finishTrunk _ _ _ _)

theorem sendsOn_offIfOwed (s : State) (t : Trunk) : SendsOn t s (s.offIfOwed t) := by
  unfold State.offIfOwed
  split
  · exact sendsOn_trans (sendsOn_setOffOwed t t s false) (sendsOn_trunkOffProcessing _ _)
  · exact sendsOn_refl t s

theorem sendsOn_stopProcessing (s : State) (t : Trunk) : SendsOn t s (s.stopProcessing t) := by
  refine sendsOn_trans (s := s.setSched { s.sched with stopDone := s.sched.stopDone.set t true }) ?_
    (sendsOn_finishTrunk _ t _ _)
  exact sendsOn_setSched t rfl rfl rfl

theorem sendsOn_stopIfClear (s : State) (t : Trunk) : SendsOn t s (s.stopIfClear t) := by
  unfold State.stopIfClear
  split
  · exact sendsOn_stopProcessing s t
  · exact sendsOn_refl t s

theorem sendsOn_takeOffReport (s : State) (t : Trunk) : SendsOn t s (s.takeOffReport t) := by
  rcases takeOffReport_cases s t with ⟨_, h⟩ | ⟨_, _, h⟩ | ⟨_, _, h⟩
  · rw [h]
    exact sendsOn_refl t s
  · rw [h]
    exact sendsOn_setOffOwed t t s true
  · rw [h]
    exact sendsOn_trunkOffProcessing s t

/-! ### Joining and rounds -/

/-- The state in which a new entry stands in its list, and the sequence has moved on (R83, R84). -/
def withJoined (s : State) (i : Nat) (c : SendCopy) (round : Bool) : State :=
  s.setSched { s.sched with
    seq := s.sched.seq + 1
    lists := s.sched.lists.set c.trunk (joinList (newEntry i c round s.sched.seq s.now) (s.list c.trunk)) }

/-- How an entry joins: it finishes at once, or a selection follows (R84). -/
theorem joinEntry_eq (s : State) (i : Nat) (c : SendCopy) (round : Bool) :
    s.joinEntry i c round =
      match s.endAtJoining c.trunk with
      | some code =>
        (withJoined s i c round).finishEntry c.trunk (newEntry i c round s.sched.seq s.now) code s.now
      | none => (withJoined s i c round).select c.trunk := rfl

theorem sendsOn_withJoined (s : State) (i : Nat) (c : SendCopy) (round : Bool) :
    SendsOn c.trunk s (withJoined s i c round) := by
  refine sendsOn_trans (s := s.setSched { s.sched with seq := s.sched.seq + 1 }) (sendsOn_setSched _ rfl rfl rfl) ?_
  exact sendsOn_setList (classOrdered_joinList _ _)

theorem sendsOn_joinEntry (s : State) (i : Nat) (c : SendCopy) (round : Bool) :
    SendsOn c.trunk s (s.joinEntry i c round) := by
  rw [joinEntry_eq]
  split
  · exact sendsOn_trans (sendsOn_withJoined s i c round) (sendsOn_finishEntry _ _ _ _ _)
  · exact sendsOn_trans (sendsOn_withJoined s i c round) (sendsOn_select _ _)

/-- The round that joins is a due one of the trunk (R110). -/
theorem nextRound_some {s : State} {t : Trunk} {r : RepeatEntry} (h : s.nextRound t = some r) :
    r ∈ s.sched.repeats ∧ r.copy.trunk = t ∧ ∃ since, r.round = .due since := by
  have hr := List.mem_of_head? (Option.mem_def.2 h)
  rw [mem_orderBy, List.mem_filter] at hr
  obtain ⟨hm, hp⟩ := hr
  obtain ⟨ht, hd⟩ := Bool.and_eq_true_iff.1 hp
  refine ⟨hm, by simpa using ht, ?_⟩
  unfold RepeatEntry.dueSince at hd
  split at hd
  · exact ⟨_, ‹_›⟩
  · cases hd
  · cases hd

/-- All that a join of a round can do (R110): nothing, or the first due entry joins a free place. -/
theorem joinRound_cases (s : State) (t : Trunk) :
    s.joinRound t = s
      ∨ ∃ r, s.schedulerLive = true ∧ s.hasPlace t = true ∧ s.nextRound t = some r
          ∧ s.joinRound t = (s.updateRepeat r.index (fun x => { x with round := .inRound })).joinEntry r.index r.copy true := by
  unfold State.joinRound
  by_cases h : (s.schedulerLive && s.hasPlace t) = true
  · rw [if_pos h]
    obtain ⟨hl, hp⟩ := Bool.and_eq_true_iff.1 h
    cases hn : s.nextRound t with
    | none => exact .inl rfl
    | some r => exact .inr ⟨r, hl, hp, rfl, rfl⟩
  · exact .inl (if_neg h)

theorem sendsOn_joinRound (s : State) (t : Trunk) : SendsOn t s (s.joinRound t) := by
  rcases joinRound_cases s t with h | ⟨r, _, _, hn, h⟩
  · rw [h]
    exact sendsOn_refl t s
  · rw [h]
    obtain ⟨_, rfl, _⟩ := nextRound_some hn
    exact sendsOn_trans (sendsOn_updateRepeat _ s _ _) (sendsOn_joinEntry _ _ _ _)

theorem sendsOn_dueTimeOf (s : State) (r : RepeatEntry) : SendsOn r.copy.trunk s (s.dueTimeOf r) := by
  unfold State.dueTimeOf
  dsimp only
  cases s.session.state with
  | running | paused | settling =>
    cases r.round with
    | between => exact sendsOn_trans (sendsOn_updateRepeat _ s _ _) (sendsOn_joinRound _ _)
    | due since => exact sendsOn_updateRepeat _ s _ _
    | inRound => exact sendsOn_updateRepeat _ s _ _
  | standby => exact sendsOn_updateRepeat _ s _ _
  | stopping => exact sendsOn_updateRepeat _ s _ _
  | unset => exact sendsOn_refl _ s
  | faulted => exact sendsOn_refl _ s

/-- The repeat entry that a claim forms, its first round due at once (R108). -/
def newRepeat (i : Nat) (c : SendCopy) (period : Nat) (now : Word) : RepeatEntry :=
  { index := i, copy := c, period := period, nextDue := now, round := .between, count := 0, overruns := 0
    last := none, attempts := 0, losses := 0, endRequest := false }

/-- How a repeat entry joins: it ends at once, or its first due time is taken (R108). -/
theorem joinRepeat_eq (s : State) (i : Nat) (c : SendCopy) (p : Nat) :
    s.joinRepeat i c p =
      match s.endAtJoining c.trunk with
      | some code =>
        (s.setRepeats (s.sched.repeats ++ [newRepeat i c p s.now])).endRepeat (newRepeat i c p s.now) code
          (newRepeat i c p s.now).figures s.now
      | none => (s.setRepeats (s.sched.repeats ++ [newRepeat i c p s.now])).dueTimeOf (newRepeat i c p s.now) := rfl

theorem sendsOn_joinRepeat (s : State) (i : Nat) (c : SendCopy) (p : Nat) : SendsOn c.trunk s (s.joinRepeat i c p) := by
  rw [joinRepeat_eq]
  split
  · exact sendsOn_trans (sendsOn_setRepeats _ s _) (sendsOn_endRepeat _ _ _ _ _ _)
  · exact sendsOn_trans (sendsOn_setRepeats _ s _) (sendsOn_dueTimeOf _ (newRepeat i c p s.now))

/-! ### Outcomes, rests, expiries and cancellations -/

theorem record_copy (e : Entry) (o : AttemptOutcome) : (e.record o).copy = e.copy := rfl

theorem sendsOn_flipToggle (t o : Trunk) (s : State) (d : Nat) : SendsOn t s (s.flipToggle o d) :=
  sendsOn_setSched t rfl rfl rfl

theorem sendsOn_decideEntry (s : State) (t : Trunk) (e : Entry) (o : AttemptOutcome) :
    SendsOn t s (s.decideEntry t e o) := by
  have kept : ∀ (c : Condition) (retry : Bool),
      SendsOn t s (s.updateEntry t e.index (fun x => { x.record o with condition := c, retry := retry })) :=
    fun _ _ => sendsOn_updateEntry t s _ fun _ => rfl
  unfold State.decideEntry
  dsimp only
  split
  · exact sendsOn_trans (sendsOn_flipToggle t t s _) (sendsOn_finishEntry _ _ _ _ _)
  repeat' split
  · exact sendsOn_finishEntry s t _ _ _
  · exact sendsOn_finishEntry s t _ _ _
  · exact sendsOn_finishEntry s t _ _ _
  · exact kept _ _
  · exact sendsOn_finishEntry s t _ _ _
  · exact kept _ _
  · exact kept _ _

theorem sendsOn_outcome (s : State) (t : Trunk) (i : Nat) (o : AttemptOutcome) : SendsOn t s (s.outcome t i o) := by
  unfold State.outcome
  split
  · split
    · exact sendsOn_refl t s
    · exact sendsOn_trans (sendsOn_trans (sendsOn_decideEntry s t _ o) (sendsOn_select _ t)) (sendsOn_stopIfClear _ t)
  · exact sendsOn_refl t s

theorem sendsOn_endRest (s : State) (t : Trunk) (i : Nat) : SendsOn t s (s.endRest t i) :=
  sendsOn_trans (sendsOn_updateEntry t s i (f := fun e => { e with condition := .waiting }) fun _ => rfl)
    (sendsOn_select _ t)

theorem sendsOn_expireEntry (s : State) (t : Trunk) (e : Entry) : SendsOn t s (s.expireEntry t e) := by
  unfold State.expireEntry
  split
  · exact sendsOn_updateEntry t s _ fun _ => rfl
  · split
    · exact sendsOn_updateEntry t s _ fun _ => rfl
    · exact sendsOn_trans (sendsOn_finishEntry s t e _ _) (sendsOn_select _ t)

theorem sendsOn_cancelEntry (s : State) (t : Trunk) (e : Entry) : SendsOn t s (s.cancelEntry t e) := by
  have marked : SendsOn t s (s.updateEntry t e.index (fun x => { x with endMark := .cancelled })) :=
    sendsOn_updateEntry t s _ fun _ => rfl
  unfold State.cancelEntry
  dsimp only
  by_cases hf : e.condition = .inFlight
  · rw [if_pos hf]
    have first : SendsOn t s
        (if e.endMark = .none then s.updateEntry t e.index (fun x => { x with endMark := .cancelled }) else s) := by
      split
      · exact marked
      · exact sendsOn_refl t s
    split
    · exact sendsOn_trans first (sendsOn_updateRepeat t _ _ _)
    · exact first
  · rw [if_neg hf]
    exact sendsOn_trans (sendsOn_finishEntry s t e _ _) (sendsOn_select _ t)

end Sys2Proof.Proofs

/-! SUPPORT. How a slot assignment pairs frames with offered envelopes (R130): what it keeps of the frames and of the
receive list, what the newest frame of a queue gets, and that slots stay in order. -/

namespace Sys2Proof.Proofs

open Sys2Proof.Machine Sys2Proof.Laws Sys2Proof.Safety

/-- What a slot assignment with trunks barred from the start leaves of a queue. -/
def framesOf (w : List Trunk) (q : List QueuedFrame) (l : List Offered) : List QueuedFrame := (assignFrom w q l).1

/-- What a slot assignment with trunks barred from the start leaves of the receive list. -/
def offersOf (w : List Trunk) (q : List QueuedFrame) (l : List Offered) : List Offered := (assignFrom w q l).2

theorem assignFrom_eq (w : List Trunk) (q : List QueuedFrame) (l : List Offered) :
    assignFrom w q l = (framesOf w q l, offersOf w q l) := rfl

/-! ### The first entry that serves a trunk -/

theorem takeOffered_none {t : Trunk} {l : List Offered} :
    takeOffered t l = none ↔ ∀ o ∈ l, o.mask.getLsbD t.val = false := by
  induction l with
  | nil => simp [takeOffered]
  | cons o os ih =>
    unfold takeOffered
    cases h : o.mask.getLsbD t.val with
    | true => simp [h]
    | false => simp [h, ih]

theorem takeOffered_some {t : Trunk} {l l' : List Offered} {o : Offered} (h : takeOffered t l = some (o, l')) :
    ∃ before after, l = before ++ o :: after ∧ l' = before ++ after ∧ o.mask.getLsbD t.val = true
      ∧ ∀ z ∈ before, z.mask.getLsbD t.val = false := by
  induction l generalizing l' with
  | nil => cases h
  | cons x xs ih =>
    unfold takeOffered at h
    cases hx : x.mask.getLsbD t.val with
    | true =>
      simp only [hx, if_true, Option.some.injEq, Prod.mk.injEq] at h
      obtain ⟨rfl, rfl⟩ := h
      exact ⟨[], xs, rfl, rfl, hx, fun z hz => nomatch hz⟩
    | false =>
      simp only [hx, Bool.false_eq_true, if_false, Option.map_eq_some_iff] at h
      obtain ⟨⟨y, ys⟩, hy, he⟩ := h
      simp only [Prod.mk.injEq] at he
      obtain ⟨rfl, rfl⟩ := he
      obtain ⟨before, after, rfl, rfl, hm, hb⟩ := ih hy
      refine ⟨x :: before, after, rfl, rfl, hm, fun z hz => ?_⟩
      rcases List.mem_cons.1 hz with rfl | hz
      · exact hx
      · exact hb z hz

theorem takeOffered_split {t : Trunk} {before after : List Offered} {o : Offered} (ho : o.mask.getLsbD t.val = true)
    (hb : ∀ z ∈ before, z.mask.getLsbD t.val = false) :
    takeOffered t (before ++ o :: after) = some (o, before ++ after) := by
  induction before with
  | nil => simp [takeOffered, ho]
  | cons x xs ih =>
    rw [List.cons_append, takeOffered, if_neg (by simp [hb x List.mem_cons_self]),
      ih fun z hz => hb z (List.mem_cons_of_mem _ hz)]
    rfl

/-! ### One frame of an assignment -/

/-- The oldest frame `x` becomes `y`, barred trunks `w` become `v`, the receive list `l` becomes `m`: it has a slot, or
its trunk is barred, or nothing serves it and it bars its trunk, or it takes the first entry that serves it (R130). -/
def FrameTaken (w : List Trunk) (x : QueuedFrame) (l : List Offered) (y : QueuedFrame) (v : List Trunk)
    (m : List Offered) : Prop :=
  (x.slot ≠ none ∧ y = x ∧ v = w ∧ m = l)
    ∨ (x.slot = none ∧ x.trunk ∈ w ∧ y = x ∧ v = w ∧ m = l)
    ∨ (x.slot = none ∧ x.trunk ∉ w ∧ (∀ o ∈ l, o.mask.getLsbD x.trunk.val = false) ∧ y = x ∧ v = x.trunk :: w ∧ m = l)
    ∨ ∃ o before after, x.slot = none ∧ x.trunk ∉ w ∧ l = before ++ o :: after ∧ o.mask.getLsbD x.trunk.val = true
        ∧ y = { x with slot := some o.index } ∧ v = w ∧ m = before ++ after

/-- An assignment takes the oldest frame, and goes on with the frames behind it. -/
theorem assignFrom_cons (w : List Trunk) (x : QueuedFrame) (l : List Offered) :
    ∃ y v m, FrameTaken w x l y v m
      ∧ ∀ q, framesOf w (x :: q) l = y :: framesOf v q m ∧ offersOf w (x :: q) l = offersOf v q m := by
  unfold framesOf offersOf
  cases hs : x.slot with
  | some i => exact ⟨x, w, l, .inl ⟨by simp [hs], rfl, rfl, rfl⟩, fun q => by simp [assignFrom, hs]⟩
  | none =>
    by_cases hw : x.trunk ∈ w
    · exact ⟨x, w, l, .inr (.inl ⟨hs, hw, rfl, rfl, rfl⟩), fun q => by simp [assignFrom, hs, hw]⟩
    · cases ht : takeOffered x.trunk l with
      | none =>
        exact ⟨x, x.trunk :: w, l, .inr (.inr (.inl ⟨hs, hw, takeOffered_none.1 ht, rfl, rfl, rfl⟩)),
          fun q => by simp [assignFrom, hs, hw, ht]⟩
      | some p =>
        obtain ⟨o, l'⟩ := p
        obtain ⟨before, after, hl, rfl, ho, hb⟩ := takeOffered_some ht
        exact ⟨{ x with slot := some o.index }, w, before ++ after,
          .inr (.inr (.inr ⟨o, before, after, hs, hw, hl, ho, rfl, rfl, rfl⟩)),
          fun q => by simp [assignFrom, hs, hw, ht]⟩

/-- The frame with its slot taken away. -/
def slotless (x : QueuedFrame) : QueuedFrame := { x with slot := none }

theorem frameTaken_slotless {w v : List Trunk} {x y : QueuedFrame} {l m : List Offered} (h : FrameTaken w x l y v m) :
    slotless y = slotless x := by
  rcases h with ⟨_, rfl, _⟩ | ⟨_, _, rfl, _⟩ | ⟨_, _, _, rfl, _⟩ | ⟨o, _, _, _, _, _, _, rfl, _⟩ <;> rfl

theorem frameTaken_sublist {w v : List Trunk} {x y : QueuedFrame} {l m : List Offered} (h : FrameTaken w x l y v m) :
    m.Sublist l := by
  rcases h with ⟨_, _, _, rfl⟩ | ⟨_, _, _, _, rfl⟩ | ⟨_, _, _, _, _, rfl⟩ | ⟨o, before, after, _, _, rfl, _, _, _, rfl⟩
  · exact List.Sublist.refl _
  · exact List.Sublist.refl _
  · exact List.Sublist.refl _
  · exact (List.sublist_cons_self o after).append_left before

theorem assignFrom_slotless (w : List Trunk) (q : List QueuedFrame) (l : List Offered) :
    (framesOf w q l).map slotless = q.map slotless := by
  induction q generalizing w l with
  | nil => rfl
  | cons x q ih =>
    obtain ⟨y, v, m, hx, h⟩ := assignFrom_cons w x l
    rw [(h q).1, List.map_cons, List.map_cons, ih, frameTaken_slotless hx]

theorem assignFrom_length (w : List Trunk) (q : List QueuedFrame) (l : List Offered) :
    (framesOf w q l).length = q.length := by
  simpa using congrArg List.length (assignFrom_slotless w q l)

theorem assignFrom_sublist (w : List Trunk) (q : List QueuedFrame) (l : List Offered) : (offersOf w q l).Sublist l := by
  induction q generalizing w l with
  | nil => exact List.Sublist.refl l
  | cons x q ih =>
    obtain ⟨y, v, m, hx, h⟩ := assignFrom_cons w x l
    rw [(h q).2]
    exact (ih v m).trans (frameTaken_sublist hx)

/-- A frame that has a slot keeps it, and a slot that is given is that of an entry which serves the trunk. -/
theorem assignFrom_slot (w : List Trunk) (q : List QueuedFrame) (l : List Offered) (k : Nat) (x y : QueuedFrame)
    (hx : q[k]? = some x) (hy : (framesOf w q l)[k]? = some y) :
    (x.slot ≠ none → y.slot = x.slot)
      ∧ (x.slot = none → ∀ i, y.slot = some i → ∃ o ∈ l, o.index = i ∧ o.mask.getLsbD y.trunk.val = true) := by
  induction q generalizing w l k with
  | nil => simp at hx
  | cons z q ih =>
    obtain ⟨u, v, m, hz, h⟩ := assignFrom_cons w z l
    rw [(h q).1] at hy
    cases k with
    | succ k =>
      obtain ⟨kept, given⟩ := ih v m k (by simpa using hx) (by simpa using hy)
      refine ⟨kept, fun hn i hi => ?_⟩
      obtain ⟨o, ho, hoi⟩ := given hn i hi
      exact ⟨o, (frameTaken_sublist hz).subset ho, hoi⟩
    | zero =>
      obtain rfl : z = x := by simpa using hx
      obtain rfl : u = y := by simpa using hy
      have same : u = z → (z.slot ≠ none → u.slot = z.slot)
          ∧ (z.slot = none → ∀ i, u.slot = some i → ∃ o ∈ l, o.index = i ∧ o.mask.getLsbD u.trunk.val = true) := by
        rintro rfl
        exact ⟨fun _ => rfl, fun hn i hi => by rw [hn] at hi; cases hi⟩
      rcases hz with ⟨_, hu, _⟩ | ⟨_, _, hu, _⟩ | ⟨_, _, _, hu, _⟩ | ⟨o, before, after, hn, _, hl, ho, hu, _⟩
      · exact same hu
      · exact same hu
      · exact same hu
      · rw [hu]
        exact ⟨fun h => absurd hn h, fun _ i hi => ⟨o, by simp [hl], Option.some.inj hi, ho⟩⟩

/-! ### Slots in order -/

/-- Frames of barred trunks have no slot. -/
def BarredLack (w : List Trunk) (q : List QueuedFrame) : Prop := ∀ x ∈ q, x.trunk ∈ w → x.slot = none

theorem barredLack_cons {w : List Trunk} {x : QueuedFrame} {q : List QueuedFrame} :
    BarredLack w (x :: q) ↔ (x.trunk ∈ w → x.slot = none) ∧ BarredLack w q := List.forall_mem_cons

/-- An assignment keeps the slots in order, and gives none to a barred trunk. -/
theorem assignFrom_inOrder (w : List Trunk) (q : List QueuedFrame) (l : List Offered) (ho : SlotsInOrder q)
    (hb : BarredLack w q) : SlotsInOrder (framesOf w q l) ∧ BarredLack w (framesOf w q l) := by
  induction q generalizing w l with
  | nil => exact ⟨List.Pairwise.nil, fun x hx => nomatch hx⟩
  | cons x q ih =>
    rw [SlotsInOrder, List.pairwise_cons] at ho
    obtain ⟨hx, ho⟩ := ho
    obtain ⟨hbx, hbq⟩ := barredLack_cons.1 hb
    obtain ⟨y, v, m, hy, h⟩ := assignFrom_cons w x l
    rw [(h q).1, SlotsInOrder, List.pairwise_cons, barredLack_cons]
    rcases hy with ⟨hs, rfl, rfl, _⟩ | ⟨hs, hw, rfl, rfl, _⟩ | ⟨hs, hw, _, rfl, rfl, _⟩ | ⟨o, _, _, hs, hw, _, _, rfl, rfl, _⟩
    · obtain ⟨io, ib⟩ := ih v m ho hbq
      exact ⟨⟨fun z _ _ hn => absurd hn hs, io⟩, hbx, ib⟩
    · obtain ⟨io, ib⟩ := ih v m ho hbq
      exact ⟨⟨fun z hz ht _ => ib z hz (ht ▸ hw), io⟩, hbx, ib⟩
    · have hbq' : BarredLack (y.trunk :: w) q := by
        intro z hz hzw
        rcases List.mem_cons.1 hzw with ht | hzw
        · exact hx z hz ht.symm hs
        · exact hbq z hz hzw
      obtain ⟨io, ib⟩ := ih _ m ho hbq'
      exact ⟨⟨fun z hz ht _ => ib z hz (ht ▸ List.mem_cons_self), io⟩, hbx,
        fun z hz hzw => ib z hz (List.mem_cons_of_mem _ hzw)⟩
    · obtain ⟨io, ib⟩ := ih v m ho hbq
      exact ⟨⟨fun z _ _ hn => (nomatch hn), io⟩, fun h => absurd h hw, ib⟩

/-- A frame left without a slot, with no older frame of its trunk that lacks one, found no entry that serves it. -/
theorem assignFrom_unserved (w : List Trunk) (q : List QueuedFrame) (l : List Offered)
    (older newer : List QueuedFrame) (y : QueuedFrame) (h : framesOf w q l = older ++ y :: newer) (hy : y.slot = none)
    (hw : y.trunk ∉ w) (hold : ∀ z ∈ older, z.trunk = y.trunk → z.slot ≠ none) :
    ∀ o ∈ offersOf w q l, o.mask.getLsbD y.trunk.val = false := by
  induction q generalizing w l older with
  | nil =>
    have := congrArg List.length h
    simp [framesOf, assignFrom] at this
  | cons x q ih =>
    obtain ⟨u, v, m, hx, e⟩ := assignFrom_cons w x l
    rw [(e q).1] at h
    rw [(e q).2]
    cases older with
    | cons z older =>
      rw [List.cons_append, List.cons.injEq] at h
      obtain ⟨rfl, h⟩ := h
      have hv : y.trunk ∉ v := by
        rcases hx with ⟨_, _, rfl, _⟩ | ⟨_, _, _, rfl, _⟩ | ⟨hs, _, _, rfl, rfl, _⟩ | ⟨_, _, _, _, _, _, _, _, rfl, _⟩
        · exact hw
        · exact hw
        · have hne : y.trunk ≠ u.trunk := fun ht => hold u List.mem_cons_self ht.symm hs
          simp [hne, hw]
        · exact hw
      exact ih v m older h hv fun z hz => hold z (List.mem_cons_of_mem _ hz)
    | nil =>
      obtain ⟨rfl, _⟩ := List.cons.inj h
      rcases hx with ⟨hs, rfl, _⟩ | ⟨_, hxw, rfl, _⟩ | ⟨_, _, hno, rfl, rfl, rfl⟩ | ⟨_, _, _, _, _, _, _, rfl, _⟩
      · exact absurd hy hs
      · exact absurd hxw hw
      · exact fun o ho => hno o ((assignFrom_sublist _ q m).subset ho)
      · cases hy

/-! ### The newest frame -/

/-- The trunks that are barred after an assignment: those barred before, and those of frames left without a slot. -/
def barredAfter (w : List Trunk) (r : List QueuedFrame) : List Trunk :=
  (r.filter (fun z => z.slot.isNone)).map QueuedFrame.trunk ++ w

theorem mem_barredAfter (w : List Trunk) (r : List QueuedFrame) (t : Trunk) :
    t ∈ barredAfter w r ↔ (∃ z ∈ r, z.trunk = t ∧ z.slot = none) ∨ t ∈ w := by
  simp only [barredAfter, List.mem_append, List.mem_map, List.mem_filter, Option.isNone_iff_eq_none]
  constructor
  · rintro (⟨z, ⟨hz, hn⟩, ht⟩ | h)
    · exact .inl ⟨z, hz, ht, hn⟩
    · exact .inr h
  · rintro (⟨z, hz, ht, hn⟩ | h)
    · exact .inl ⟨z, ⟨hz, hn⟩, ht⟩
    · exact .inr h

/-- The trunks that are barred enter an assignment as a set. -/
theorem assignFrom_congr (w v : List Trunk) (q : List QueuedFrame) (l : List Offered) (h : ∀ t, t ∈ w ↔ t ∈ v) :
    assignFrom w q l = assignFrom v q l := by
  induction q generalizing w v l with
  | nil => rfl
  | cons x q ih =>
    have hc : w.contains x.trunk = v.contains x.trunk := by
      rw [Bool.eq_iff_iff, List.contains_iff_mem, List.contains_iff_mem, h]
    have hx : ∀ t, t ∈ x.trunk :: w ↔ t ∈ x.trunk :: v := by simp [h]
    simp only [assignFrom, hc, ih w v _ h, ih _ _ l hx]

/-- A frame taken bars its trunk when it is left without a slot. -/
theorem frameTaken_barred {w v : List Trunk} {x y : QueuedFrame} {l m : List Offered} (h : FrameTaken w x l y v m)
    (r : List QueuedFrame) (t : Trunk) : t ∈ barredAfter w (y :: r) ↔ t ∈ barredAfter v r := by
  simp only [mem_barredAfter, List.exists_mem_cons_iff]
  rcases h with ⟨hs, rfl, rfl, _⟩ | ⟨hs, hw, rfl, rfl, _⟩ | ⟨hs, _, _, rfl, rfl, _⟩ | ⟨o, _, _, _, _, _, _, rfl, rfl, _⟩
  · simp [hs]
  · have hv : y.trunk = t → t ∈ v := fun ht => ht ▸ hw
    rw [hs, eq_self, and_true, or_assoc]
    exact ⟨fun h => h.elim (fun ht => .inr (hv ht)) id, .inr⟩
  · rw [hs, eq_self, and_true, List.mem_cons, eq_comm (a := t), or_assoc]
    exact or_left_comm
  · simp

/-- A queue is assigned frame by frame: the newest comes last, past the frames that the older ones leave. -/
theorem assignFrom_concat (w : List Trunk) (q : List QueuedFrame) (x : QueuedFrame) (l : List Offered) :
    framesOf w (q ++ [x]) l
        = framesOf w q l ++ framesOf (barredAfter w (framesOf w q l)) [x] (offersOf w q l)
      ∧ offersOf w (q ++ [x]) l = offersOf (barredAfter w (framesOf w q l)) [x] (offersOf w q l) := by
  induction q generalizing w l with
  | nil => exact ⟨rfl, rfl⟩
  | cons z q ih =>
    obtain ⟨y, v, m, hz, h⟩ := assignFrom_cons w z l
    have hbar := assignFrom_congr _ _ [x] (offersOf v q m) (frameTaken_barred hz (framesOf v q m))
    have hf := congrArg Prod.fst hbar
    have hl := congrArg Prod.snd hbar
    rw [List.cons_append, (h (q ++ [x])).1, (h (q ++ [x])).2, (h q).1, (h q).2, (ih v m).1, (ih v m).2]
    exact ⟨congrArg (fun r => y :: (framesOf v q m ++ r)) hf.symm, hl.symm⟩

/-! ### The obligation -/

/-- What the newest frame gets, by what the older ones leave. -/
theorem assignFrom_newest (q : List QueuedFrame) (l : List Offered) (x : QueuedFrame) :
    let r := assignFrom [] q l
    let next := assignFrom [] (q ++ [x]) l
    let barred := ∃ z ∈ r.1, z.trunk = x.trunk ∧ z.slot = none
    (x.slot ≠ none ∨ barred → next = (r.1 ++ [x], r.2))
      ∧ (x.slot = none → ¬ barred → (∀ o ∈ r.2, o.mask.getLsbD x.trunk.val = false) → next = (r.1 ++ [x], r.2))
      ∧ (∀ (o : Offered) (before after : List Offered), x.slot = none → ¬ barred →
          r.2 = before ++ o :: after → o.mask.getLsbD x.trunk.val = true →
          (∀ z ∈ before, z.mask.getLsbD x.trunk.val = false) →
          next = (r.1 ++ [{ x with slot := some o.index }], before ++ after)) := by
  dsimp only
  rw [assignFrom_eq, assignFrom_eq, (assignFrom_concat [] q x l).1, (assignFrom_concat [] q x l).2]
  have hbar : (x.trunk ∈ barredAfter [] (framesOf [] q l)) ↔ ∃ z ∈ framesOf [] q l, z.trunk = x.trunk ∧ z.slot = none := by
    rw [mem_barredAfter]
    simp
  dsimp only
  rw [← hbar]
  generalize barredAfter [] (framesOf [] q l) = w
  generalize framesOf [] q l = r, offersOf [] q l = m
  refine ⟨fun h => ?_, fun hs hb hno => ?_, fun o before after hs hb hr ho hbefore => ?_⟩
  · rcases h with h | h
    · obtain ⟨i, hi⟩ := Option.ne_none_iff_exists'.1 h
      simp [framesOf, offersOf, assignFrom, hi]
    · simp [framesOf, offersOf, assignFrom, h]
  · simp [framesOf, offersOf, assignFrom, hs, hb, takeOffered_none.2 hno]
  · simp [framesOf, offersOf, assignFrom, hs, hb, hr, takeOffered_split ho hbefore]

/-- Settles O55: each part by induction over the queue, along what the assignment does with the oldest frame. -/
theorem slotAssignment : Obligations.SlotAssignment := by
  intro q l
  refine ⟨assignFrom_slotless [] q l, assignFrom_sublist [] q l, assignFrom_slot [] q l, fun ho => ⟨?_, ?_⟩, rfl,
    assignFrom_newest q l⟩
  · exact (assignFrom_inOrder [] q l ho fun x _ h => nomatch h).1
  · intro older newer y h hy hold
    exact assignFrom_unserved [] q l older newer y h hy (fun hw => nomatch hw) hold

end Sys2Proof.Proofs

/-! SUPPORT. What the send scheduler does over all trunks, and what the sweeper's decisions do: one relation for each, with
one lemma for each operation. -/

namespace Sys2Proof.Proofs

open Sys2Proof.Machine Sys2Proof.Laws Sys2Proof.Safety

/-! ### The scheduler on any trunks -/

/-- From `s` to `v` the send scheduler has worked: what it leaves alone, and what it keeps on every trunk. -/
structure Sends (s v : State) : Prop where
  elsewhere : SameElsewhereAndStandby s v
  regs : v.regs = s.regs
  director : v.director = s.director
  results : v.results = { s.results with queue := v.results.queue }
  windowMode : v.sched.windowMode = s.sched.windowMode
  backoff : v.sched.backoff = s.sched.backoff
  engine : ∀ o, Rearmed (s.engine o) (v.engine o)
  order : ∀ o, ClassOrdered (s.list o) → ClassOrdered (v.list o)

theorem SendsOn.sends {t : Trunk} {s v : State} (h : SendsOn t s v) : Sends s v := by
  refine ⟨h.elsewhere, h.regs, h.director, h.results, h.windowMode, h.backoff, fun o => ?_, fun o => ?_⟩
  · by_cases ho : o = t
    · exact ho ▸ h.engine
    · rw [(h.others o ho).1]
      exact rearmed_refl _
  · by_cases ho : o = t
    · exact ho ▸ h.order
    · rw [(h.others o ho).2]
      exact id

theorem sends_refl (s : State) : Sends s s := (sendsOn_refl 0 s).sends

theorem sends_trans {r s v : State} (h : Sends r s) (k : Sends s v) : Sends r v where
  elsewhere := keeps_trans h.elsewhere k.elsewhere
  regs := k.regs.trans h.regs
  director := k.director.trans h.director
  results := by rw [k.results, h.results]
  windowMode := k.windowMode.trans h.windowMode
  backoff := k.backoff.trans h.backoff
  engine := fun o => rearmed_trans (h.engine o) (k.engine o)
  order := fun o => k.order o ∘ h.order o

theorem Sends.session {s v : State} (h : Sends s v) : v.session = s.session := h.elsewhere.1.2.1

theorem Sends.sweeper {s v : State} (h : Sends s v) : v.sweeper = s.sweeper := h.elsewhere.1.2.2.2.1

theorem Sends.port {s v : State} (h : Sends s v) : v.port = s.port := h.elsewhere.1.2.2.1

theorem Sends.header {s v : State} (h : Sends s v) : v.header = s.header := h.elsewhere.1.2.2.2.2.1

theorem Sends.standby {s v : State} (h : Sends s v) : v.standby = s.standby := h.elsewhere.2

theorem sends_finishMarked (l : List Marked) (s : State) : Sends s (finishMarked l s) := by
  induction l generalizing s with
  | nil => exact sends_refl s
  | cons m ms ih =>
    exact sends_trans (sendsOn_trans (sendsOn_finishEntry s m.1 m.2 _ _) (sendsOn_select _ m.1)).sends (ih _)

theorem sends_finishAtStop (l : List Marked) (s : State) : Sends s (finishAtStop l s) := by
  induction l generalizing s with
  | nil => exact sends_refl s
  | cons m ms ih => exact sends_trans (sendsOn_finishEntry s m.1 m.2 _ _).sends (ih _)

theorem sends_owedTrunksOff (s : State) : Sends s s.owedTrunksOff :=
  sends_trans (sends_trans (sends_trans (sendsOn_offIfOwed s 0).sends (sendsOn_offIfOwed _ 1).sends)
    (sendsOn_offIfOwed _ 2).sends) (sendsOn_offIfOwed _ 3).sends

theorem sends_stopClearTrunks (s : State) : Sends s s.stopClearTrunks :=
  sends_trans (sends_trans (sends_trans (sendsOn_stopIfClear s 0).sends (sendsOn_stopIfClear _ 1).sends)
    (sendsOn_stopIfClear _ 2).sends) (sendsOn_stopIfClear _ 3).sends

theorem sends_selectInWindow (s : State) (t : Trunk) : Sends s (s.selectInWindow t) := by
  unfold State.selectInWindow
  split
  · exact (sendsOn_select s t).sends
  · exact sends_refl s

theorem sends_selectInWindows (s : State) :
    Sends s ((((s.selectInWindow 0).selectInWindow 1).selectInWindow 2).selectInWindow 3) :=
  sends_trans (sends_trans (sends_trans (sends_selectInWindow s 0) (sends_selectInWindow _ 1)) (sends_selectInWindow _ 2))
    (sends_selectInWindow _ 3)

theorem sends_sendCancel (s : State) (i : Nat) : Sends s (s.sendCancel i) := by
  unfold State.sendCancel
  split
  · split
    · exact (sendsOn_cancelEntry s _ _).sends
    · exact sends_refl s
  · split
    · exact (sendsOn_endRepeat 0 s _ _ _ _).sends
    · exact sends_refl s

/-! ### The sweeper's decisions -/

/-- From `s` to `v` the sweeper has decided on a read or on a claim: what it leaves alone, and what it keeps. -/
structure Sweeps (s v : State) : Prop where
  bus : SameBus s v
  session : v.session = s.session
  standby : v.standby = s.standby
  regs : v.regs = s.regs
  results : v.results = { s.results with queue := v.results.queue }
  engine : ∀ o, Rearmed (s.engine o) (v.engine o)
  order : ∀ o, ClassOrdered (s.list o) → ClassOrdered (v.list o)
  slots : SlotsInOrder s.director.queue → SlotsInOrder v.director.queue

theorem Sends.sweeps {s v : State} (h : Sends s v) : Sweeps s v :=
  ⟨bus_of_keeps h.elsewhere, h.session, h.standby, h.regs, h.results, h.engine, h.order, by rw [h.director]; exact id⟩

theorem sweeps_refl (s : State) : Sweeps s s := (sends_refl s).sweeps

theorem sweeps_trans {r s v : State} (h : Sweeps r s) (k : Sweeps s v) : Sweeps r v where
  bus := bus_trans h.bus k.bus
  session := k.session.trans h.session
  standby := k.standby.trans h.standby
  regs := k.regs.trans h.regs
  results := by rw [k.results, h.results]
  engine := fun o => rearmed_trans (h.engine o) (k.engine o)
  order := fun o => k.order o ∘ h.order o
  slots := k.slots ∘ h.slots

theorem sweeps_setSweeper (s : State) (x : Sweeper) : Sweeps s (s.setSweeper x) :=
  ⟨bus_refl s, rfl, rfl, rfl, rfl, fun _ => rearmed_refl _, fun _ => id, id⟩

theorem sweeps_setHeader (s : State) (x : List HeaderUnit) : Sweeps s (s.setHeader x) :=
  ⟨bus_refl s, rfl, rfl, rfl, rfl, fun _ => rearmed_refl _, fun _ => id, id⟩

theorem sweeps_setQueue (s : State) (q : List Work) : Sweeps s (s.setQueue q) :=
  ⟨bus_refl s, rfl, rfl, rfl, rfl, fun _ => rearmed_refl _, fun _ => id, id⟩

theorem sweeps_setReceiveList (s : State) (l : List Offered) : Sweeps s (s.setReceiveList l) :=
  ⟨bus_refl s, rfl, rfl, rfl, rfl, fun _ => rearmed_refl _, fun _ => id, id⟩

theorem sweeps_assignSlots (s : State) : Sweeps s s.assignSlots :=
  ⟨bus_refl s, rfl, rfl, rfl, rfl, fun _ => rearmed_refl _, fun _ => id,
    fun h => (assignFrom_inOrder [] _ _ h fun _ _ h => nomatch h).1⟩

theorem sweeps_assignIfRunning (s : State) : Sweeps s s.assignIfRunning := by
  unfold State.assignIfRunning
  split
  · exact sweeps_assignSlots s
  · exact sweeps_refl s

theorem sweeps_startSweep (s : State) : Sweeps s s.startSweep := sweeps_setSweeper s _

theorem sweeps_askSweep (s : State) : Sweeps s s.askSweep := by
  unfold State.askSweep
  split
  · exact sweeps_setSweeper s _
  · exact sweeps_startSweep s

theorem sweeps_sweepEnds (s : State) : Sweeps s s.sweepEnds := by
  have ended := sweeps_trans
    (sweeps_setSweeper s { s.sweeper with count := s.sweeper.count + 1, sweep := none, again := false })
    (sweeps_setHeader _ (s.header ++ [.sweepEnd s.now (s.sweeper.count + 1)]))
  unfold State.sweepEnds
  dsimp only
  split
  · exact sweeps_trans ended (sweeps_startSweep _)
  · exact ended

theorem sweeps_indexHandled (s : State) : Sweeps s s.indexHandled := by
  unfold State.indexHandled
  split
  · exact sweeps_refl s
  · split
    · exact sweeps_setSweeper s _
    · split
      · exact sweeps_setSweeper s _
      · exact sweeps_sweepEnds s

theorem sweeps_rejectIndex (s : State) (i : Nat) (r : ResultCode) : Sweeps s (s.rejectIndex i r) :=
  sweeps_trans (sweeps_setQueue s _) (sweeps_setSweeper _ _)

theorem sweeps_cancelIndex (s : State) (i : Nat) : Sweeps s (s.cancelIndex i) :=
  sweeps_trans (sweeps_setQueue s _) (sweeps_setSweeper _ _)

theorem sweeps_receiveCancel (s : State) (i : Nat) : Sweeps s (s.receiveCancel i) := by
  unfold State.receiveCancel
  split
  · exact sweeps_trans (sweeps_setReceiveList s _) (sweeps_setQueue _ _)
  · exact sweeps_refl s

theorem sweeps_passCancel (s : State) (i : Nat) : Sweeps s (s.passCancel i) := by
  unfold State.passCancel
  split
  · exact (sends_sendCancel s i).sweeps
  · exact sweeps_receiveCancel s i

theorem sweeps_rejected (s : State) (i : Nat) (r : ResultCode) : Sweeps s (s.rejectIndex i r).indexHandled :=
  sweeps_trans (sweeps_rejectIndex s i r) (sweeps_indexHandled _)

theorem sweeps_cancelled (s : State) (i : Nat) : Sweeps s (s.cancelIndex i).indexHandled :=
  sweeps_trans (sweeps_cancelIndex s i) (sweeps_indexHandled _)

theorem sweeps_setStage (s : State) (g : SweepStage) : Sweeps s (s.setStage g) := sweeps_setSweeper s _

theorem sweeps_sendWord0 (s : State) (i : Nat) (bs : List Byte) : Sweeps s (s.sendWord0 i bs) := by
  unfold State.sendWord0
  repeat' split
  · exact sweeps_rejected s i _
  · exact sweeps_cancelled s i
  · exact sweeps_indexHandled s
  · exact sweeps_setStage s _
  · exact sweeps_indexHandled s

theorem sweeps_receiveWord0 (s : State) (i : Nat) (bs : List Byte) : Sweeps s (s.receiveWord0 i bs) := by
  unfold State.receiveWord0
  repeat' split
  · exact sweeps_rejected s i _
  · exact sweeps_rejected s i _
  · exact sweeps_setStage s _
  · exact sweeps_indexHandled s

theorem sweeps_word0Read (s : State) (bs : List Byte) : Sweeps s (s.word0Read bs) := by
  unfold State.word0Read
  split
  · exact sweeps_refl s
  · split
    · refine sweeps_trans ?_ (sweeps_indexHandled _)
      split
      · exact sweeps_passCancel s _
      · exact sweeps_refl s
    · split
      · exact sweeps_sendWord0 s _ _
      · exact sweeps_receiveWord0 s _ _

theorem sweeps_reserve (s : State) (t : Trunk) (p : Place) (c : Claim) : Sweeps s (s.reserve t p c) :=
  sweeps_trans (sweeps_trans (sendsOn_setOffDone t t s false).sends.sweeps (sweeps_setSweeper _ _)) (sweeps_setStage _ _)

theorem sweeps_roomTest (s : State) (i : Nat) (e : SendFields) : Sweeps s (s.roomTest i e) := by
  unfold State.roomTest
  repeat' split
  · exact sweeps_reserve s _ _ _
  · exact sweeps_rejected s i _
  · exact sweeps_reserve s _ _ _
  · exact sweeps_indexHandled s

theorem sweeps_envelopeRead (s : State) (bs : List Byte) : Sweeps s (s.envelopeRead bs) := by
  unfold State.envelopeRead
  repeat' split
  · exact sweeps_refl s
  · exact sweeps_indexHandled s
  · exact sweeps_cancelled s _
  · exact sweeps_indexHandled s
  · exact sweeps_rejected s _ _
  · exact sweeps_roomTest s _ _

theorem sweeps_word1Read (s : State) (bs : List Byte) : Sweeps s (s.word1Read bs) := by
  unfold State.word1Read
  repeat' split
  · exact sweeps_refl s
  · exact sweeps_setStage s _
  · exact sweeps_indexHandled s
  · exact sweeps_rejected s _ _

theorem sweeps_claimSend (s : State) (i : Nat) : Sweeps s (s.claimSend i) :=
  sweeps_trans (sweeps_setSweeper s _) (sweeps_setSweeper _ _)

theorem sweeps_claimWritten (s : State) : Sweeps s s.claimWritten := by
  unfold State.claimWritten
  split
  · exact sweeps_refl s
  · split
    · exact sweeps_trans (sweeps_trans (sweeps_claimSend s _) (sendsOn_joinEntry _ _ _ _).sends.sweeps)
        (sweeps_indexHandled _)
    · exact sweeps_trans (sweeps_trans (sweeps_claimSend s _) (sendsOn_joinRepeat _ _ _ _).sends.sweeps)
        (sweeps_indexHandled _)
    · exact sweeps_trans (sweeps_trans (sweeps_trans (sweeps_setSweeper s _) (sweeps_setReceiveList _ _))
        (sweeps_assignIfRunning _)) (sweeps_indexHandled _)
    · exact sweeps_refl s
    · exact sweeps_refl s
    · exact sweeps_refl s

/-! ### The completion of an access, by its role -/

/-- The state in which an access has completed, before what it was for comes about: a write stands in memory, and the
port has moved on (R178). -/
def accessLanded (s : State) (u : PortUnit) : State :=
  (s.landWrite u.access).setPort { s.port with unit := u.next (u.data ++ s.readData u.access) }

theorem completeAccess_eq (s : State) (u : PortUnit) :
    s.completeAccess u = (accessLanded s u).afterAccess u.kind u.access.role (u.data ++ s.readData u.access) := by
  unfold State.completeAccess accessLanded
  rw [← landWrite_port s u.access]

/-- A landed access has changed memory and port alone. -/
theorem accessLanded_eq (s : State) (u : PortUnit) :
    accessLanded s u = { s with
      memory := (s.landWrite u.access).memory
      port := { s.port with unit := u.next (u.data ++ s.readData u.access) } } := by
  unfold accessLanded State.landWrite
  cases u.access.op <;> rfl

end Sys2Proof.Proofs

/-! SUPPORT. What an event of one trunk's engine keeps: class order, slots in order, the counts and WAKE. -/

namespace Sys2Proof.Proofs

open Sys2Proof.Machine Sys2Proof.Laws Sys2Proof.Safety

/-- From `s` to `v` an event of the engines has come about: what it leaves alone, and what it keeps. -/
structure LineEvent (s v : State) : Prop where
  elsewhere : SameElsewhere s v
  written : v.results.written = s.results.written
  countCopy : v.results.countCopy = s.results.countCopy
  wake : v.standby.wake = true → s.standby.wake = true ∨ s.session.state = .standby
  order : ∀ o, ClassOrdered (s.list o) → ClassOrdered (v.list o)
  slots : SlotsInOrder s.director.queue → SlotsInOrder v.director.queue

theorem lineEvent_refl (s : State) : LineEvent s s := ⟨(keeps_refl s).1, rfl, rfl, .inl, fun _ => id, id⟩

theorem lineEvent_trans {r s v : State} (h : LineEvent r s) (k : LineEvent s v) : LineEvent r v where
  elsewhere := same_trans h.elsewhere k.elsewhere
  written := k.written.trans h.written
  countCopy := k.countCopy.trans h.countCopy
  wake := fun hv => (k.wake hv).elim h.wake fun hs => .inr (h.elsewhere.2.1 ▸ hs)
  order := fun o => k.order o ∘ h.order o
  slots := k.slots ∘ h.slots

theorem Sends.lineEvent {s v : State} (h : Sends s v) : LineEvent s v where
  elsewhere := h.elsewhere.1
  written := by rw [h.results]
  countCopy := by rw [h.results]
  wake := fun hv => .inl (h.standby ▸ hv)
  order := h.order
  slots := by rw [h.director]; exact id

theorem SendsOn.lineEvent {t : Trunk} {s v : State} (h : SendsOn t s v) : LineEvent s v := h.sends.lineEvent

theorem lineEvent_updateEngine (s : State) (t : Trunk) (f : Engine → Engine) : LineEvent s (s.updateEngine t f) :=
  ⟨(keeps_refl s).1, rfl, rfl, .inl, fun _ => id, id⟩

theorem lineEvent_tally (s : State) (t : Trunk) (f : Tally → Tally) : LineEvent s (s.tally t f) :=
  ⟨(keeps_refl s).1, rfl, rfl, .inl, fun _ => id, id⟩

theorem lineEvent_raise (s : State) (c : Cause) : LineEvent s (s.raise c) :=
  ⟨(keeps_refl s).1, rfl, rfl, .inl, fun _ => id, id⟩

/-! ### Ends of attempts and frames -/

theorem lineEvent_attemptEnds (s : State) (t : Trunk) (o : AttemptOutcome) : LineEvent s (s.attemptEnds t o) := by
  unfold State.attemptEnds
  split
  · exact lineEvent_refl s
  · exact lineEvent_trans (lineEvent_updateEngine s t _) (sendsOn_outcome _ t _ o).lineEvent

theorem lineEvent_shapeInSending (s : State) (t : Trunk) : LineEvent s (s.shapeInSending t) :=
  lineEvent_trans (lineEvent_trans (lineEvent_updateEngine s t _) (lineEvent_tally _ t _)) (lineEvent_attemptEnds _ t _)

theorem lineEvent_abandonFrame (s : State) (t : Trunk) : LineEvent s (s.abandonFrame t) :=
  lineEvent_trans (lineEvent_trans (lineEvent_updateEngine s t _) (lineEvent_tally _ t _)) (sendsOn_select _ t).lineEvent

theorem lineEvent_foreignFrameEnds (s : State) (t : Trunk) : LineEvent s (s.foreignFrameEnds t) :=
  lineEvent_trans (lineEvent_updateEngine s t _) (sendsOn_select _ t).lineEvent

theorem lineEvent_settleReply (s : State) (t : Trunk) (o : AttemptOutcome) : LineEvent s (s.settleReply t o) := by
  unfold State.settleReply
  split
  · exact lineEvent_trans (lineEvent_tally s t _) (lineEvent_attemptEnds _ t o)
  · exact lineEvent_attemptEnds s t o

/-! ### The decision on a frame -/

/-- A frame that joins has no slot, so it breaks no order. -/
theorem slotsInOrder_concat {q : List QueuedFrame} (h : SlotsInOrder q) {x : QueuedFrame} (hx : x.slot = none) :
    SlotsInOrder (q ++ [x]) := by
  rw [SlotsInOrder, List.pairwise_append]
  refine ⟨h, List.pairwise_singleton _ _, fun y _ z hz _ _ => ?_⟩
  rw [List.mem_singleton.1 hz]
  exact hx

theorem rememberUnicast_director (s : State) (t : Trunk) (g : GoodFrame) :
    (s.rememberUnicast t g).director = { s.director with dups := (s.rememberUnicast t g).director.dups } := by
  unfold State.rememberUnicast
  split <;> rfl

theorem lineEvent_rememberUnicast (s : State) (t : Trunk) (g : GoodFrame) : LineEvent s (s.rememberUnicast t g) := by
  unfold State.rememberUnicast
  split <;> exact ⟨(keeps_refl s).1, rfl, rfl, .inl, fun _ => id, id⟩

theorem lineEvent_assignIfRunning (s : State) : LineEvent s s.assignIfRunning := by
  have h := sweeps_assignIfRunning s
  exact ⟨(keeps_assignIfRunning s).1, by rw [h.results], by rw [h.results], fun hv => .inl (h.standby ▸ hv), h.order,
    h.slots⟩

theorem lineEvent_reportAcceptance (s : State) (t : Trunk) (st : s.session.state = .standby) :
    LineEvent s (s.reportAcceptance t) := by
  unfold State.reportAcceptance
  split
  · exact ⟨(keeps_refl s).1, rfl, rfl, fun _ => .inr st, fun _ => id, id⟩
  · exact lineEvent_refl s

theorem lineEvent_acceptFrame (s : State) (t : Trunk) (g : GoodFrame) : LineEvent s (s.acceptFrame t g) := by
  have joined : LineEvent s (s.setFrames (s.director.queue ++ [s.queuedFrame t g])) :=
    ⟨(keeps_refl s).1, rfl, rfl, .inl, fun _ => id, fun h => slotsInOrder_concat h rfl⟩
  have known := lineEvent_trans joined (lineEvent_rememberUnicast _ t g)
  unfold State.acceptFrame
  dsimp only
  split
  · rename_i st
    exact lineEvent_trans known (lineEvent_reportAcceptance _ t (known.elsewhere.2.1 ▸ st))
  · exact lineEvent_trans known (lineEvent_assignIfRunning _)

theorem lineEvent_decideFrame (s : State) (t : Trunk) (g : GoodFrame) : LineEvent s (s.decideFrame t g).1 := by
  unfold State.decideFrame
  repeat' split
  · exact lineEvent_refl s
  · exact lineEvent_tally s t _
  · exact lineEvent_acceptFrame s t g
  · exact lineEvent_trans (lineEvent_tally s t _) (lineEvent_raise _ _)
  · exact lineEvent_tally s t _

/-! ### Edges and leads -/

theorem lineEvent_lostAtFall (s : State) (t : Trunk) : LineEvent s (s.lostAtFall t) := by
  unfold State.lostAtFall
  split
  · exact lineEvent_updateEngine s t _
  · exact lineEvent_trans (lineEvent_trans (lineEvent_updateEngine s t _) (lineEvent_tally _ t _))
      (sendsOn_outcome _ t _ _).lineEvent

theorem lineEvent_goodFrameAtRise (s : State) (t : Trunk) : LineEvent s (s.goodFrameAtRise t) := by
  have decided := fun f g => lineEvent_trans (lineEvent_updateEngine s t f) (lineEvent_decideFrame _ t g)
  unfold State.goodFrameAtRise
  dsimp only
  split
  · exact lineEvent_trans (decided _ _) (lineEvent_updateEngine _ t _)
  · exact lineEvent_trans (decided _ _) (lineEvent_foreignFrameEnds _ t)

theorem lineEvent_tailAtRise (s : State) (t : Trunk) : LineEvent s (s.tailAtRise t) := by
  have counted := fun f => lineEvent_trans (lineEvent_updateEngine s t f) (lineEvent_tally _ t Tally.addSent)
  unfold State.tailAtRise
  dsimp only
  split
  · exact lineEvent_trans (counted _) (lineEvent_updateEngine _ t _)
  · exact lineEvent_trans (lineEvent_trans (counted _) (lineEvent_updateEngine _ t _)) (lineEvent_attemptEnds _ t _)

theorem lineEvent_takeEdge (s : State) (t : Trunk) (l : Level) : LineEvent s (s.takeEdge t l) := by
  unfold State.takeEdge
  split
  · exact lineEvent_updateEngine s t _
  · exact lineEvent_lostAtFall s t
  · exact lineEvent_trans (lineEvent_trans (lineEvent_updateEngine s t _) (lineEvent_shapeInSending _ t))
      (lineEvent_updateEngine _ t _)
  · exact lineEvent_trans (lineEvent_trans (lineEvent_updateEngine s t _) (lineEvent_abandonFrame _ t))
      (lineEvent_updateEngine _ t _)
  · exact lineEvent_goodFrameAtRise s t
  · exact lineEvent_tailAtRise s t

theorem lineEvent_startLead (s : State) (t : Trunk) (e : Entry) : LineEvent s (s.startLead t e) :=
  lineEvent_trans (sendsOn_updateEntry t s e.index (f := Entry.started) fun _ => rfl).lineEvent
    (lineEvent_updateEngine _ t _)

theorem lineEvent_holdExpires (s : State) (t : Trunk) : LineEvent s (s.holdExpires t) := by
  have again := (sendsOn_trans (sendsOn_withdraw s t) (sendsOn_select _ t)).lineEvent
  unfold State.holdExpires
  split
  · exact lineEvent_startLead s t _
  · dsimp only
    split
    · split
      · exact lineEvent_trans again (lineEvent_startLead _ t _)
      · exact again
    · exact again

theorem lineEvent_trunkGoesOff (s : State) (t : Trunk) : LineEvent s (s.trunkGoesOff t) :=
  lineEvent_trans (lineEvent_updateEngine s t _) (sendsOn_takeOffReport _ t).lineEvent

theorem lineEvent_stuckEvent (s : State) (t : Trunk) : LineEvent s (s.stuckEvent t) :=
  lineEvent_trans (lineEvent_trans (lineEvent_updateEngine s t _) (lineEvent_tally _ t _)) (lineEvent_raise _ _)

theorem lineEvent_recoverTrunk (s : State) (t : Trunk) : LineEvent s (s.recoverTrunk t) :=
  lineEvent_trans (lineEvent_updateEngine s t _) (lineEvent_raise _ _)

/-! ### RELOAD and the other commands -/

/-- What a reload of a trunk leaves and keeps, as far as the invariants ask. -/
theorem lineEvent_reloadMode (s : State) (t : Trunk) (m : Mode) : LineEvent s (s.reloadMode t m) := by
  have withdrawn := fun f => lineEvent_trans (sendsOn_withdraw s t).lineEvent (lineEvent_updateEngine _ t f)
  unfold State.reloadMode
  split
  · exact lineEvent_refl s
  · exact lineEvent_updateEngine s t _
  · exact lineEvent_updateEngine s t _
  · exact withdrawn _
  · exact withdrawn _
  · exact lineEvent_updateEngine s t _

theorem lineEvent_reloadTrunk (s : State) (t : Trunk) (r : TrunkRecord) : LineEvent s (s.reloadTrunk t r) := by
  have modes := lineEvent_trans (lineEvent_updateEngine s t (fun e => e.reloadTiming r.timing))
    (lineEvent_reloadMode _ t r.mode)
  have tables : ∀ v : State, LineEvent v ((v.reloadListen t r.listen).reloadSched t r) := fun v =>
    ⟨(keeps_refl v).1, rfl, rfl, .inl, fun _ => id, id⟩
  unfold State.reloadTrunk
  dsimp only
  split
  · exact lineEvent_trans (lineEvent_trans modes (tables _)) (sendsOn_select _ t).lineEvent
  · exact lineEvent_trans modes (tables _)

theorem lineEvent_offAtOnce (s : State) (t : Trunk) : LineEvent s (s.offAtOnce t) := by
  unfold State.offAtOnce
  split
  · exact lineEvent_trunkGoesOff s t
  · exact lineEvent_refl s

/-- The state in which the sweeper, the session and the standby logic have their settings from a header (R160). -/
def settingsTaken (s : State) (v : Settings) : State :=
  ((s.setSweeper { s.sweeper with period := v.period }).setSession
    { s.session with windowLength := v.windowLength }).setStandby
    { s.standby with wakeEnable := v.each TrunkRecord.wakeEnable }

theorem handSettings_eq (s : State) (v : Settings) : s.handSettings v =
    ((((settingsTaken s v).reloadTrunk 0 (v.records.get 0)).reloadTrunk 1 (v.records.get 1)).reloadTrunk 2
      (v.records.get 2)).reloadTrunk 3 (v.records.get 3) := rfl

theorem lineEvent_handSettings (s : State) (v : Settings) : LineEvent (settingsTaken s v) (s.handSettings v) :=
  lineEvent_trans (lineEvent_trans (lineEvent_trans (lineEvent_reloadTrunk (settingsTaken s v) 0 _)
    (lineEvent_reloadTrunk _ 1 _)) (lineEvent_reloadTrunk _ 2 _)) (lineEvent_reloadTrunk _ 3 _)

/-- The engines that have nothing to finish enter OFF at the RELOAD itself, trunk 0 first (R46; log 3). -/
def offsAtOnce (s : State) : State := (((s.offAtOnce 0).offAtOnce 1).offAtOnce 2).offAtOnce 3

theorem reloadRead_eq (s : State) (bs : List Byte) : s.reloadRead bs =
    match firstBad (commonChecks (reloadHeader bs)) with
    | some o => s.areaInvalid .reload o
    | none => offsAtOnce ((s.handSettings (settings (reloadHeader bs))).finishCommand .reload) := rfl

theorem lineEvent_offsAtOnce (s : State) : LineEvent s (offsAtOnce s) :=
  lineEvent_trans (lineEvent_trans (lineEvent_trans (lineEvent_offAtOnce s 0) (lineEvent_offAtOnce _ 1))
    (lineEvent_offAtOnce _ 2)) (lineEvent_offAtOnce _ 3)

/-- What STOP does to the session, the read-back, WAKE, the sweep and what STANDBY kept back (R161, R173). -/
def stopBegun (s : State) : State :=
  ((((s.enterSession .stopping).beginCommand .stop).dropWake).cutSweep).dropOwedOff

theorem acceptStop_eq (s : State) : s.acceptStop =
    (if s.session.state = .standby then finishAtStop s.stopOrder (stopBegun s).closeQueue
      else (stopBegun s).closeQueue).stopClearTrunks := rfl

theorem sends_acceptStop (s : State) : Sends (stopBegun s).closeQueue s.acceptStop := by
  rw [acceptStop_eq]
  refine sends_trans ?_ (sends_stopClearTrunks _)
  split
  · exact sends_finishAtStop _ _
  · exact sends_refl _

/-- Discarded frames are counted and nothing else changes (R136). -/
theorem refuseFrames_eq (l : List QueuedFrame) (s : State) :
    refuseFrames l s = s.setResults { s.results with tallies := (refuseFrames l s).results.tallies } := by
  induction l generalizing s with
  | nil => rfl
  | cons q qs ih =>
    unfold refuseFrames
    rw [ih (s.tally q.trunk Tally.addRefused)]
    rfl

theorem closeQueue_eq (s : State) : s.closeQueue =
    { s with
      director := { s.director with queue := s.director.queue.filter (fun q => q.slot.isSome) }
      results := { s.results with tallies := s.closeQueue.results.tallies } } := by
  unfold State.closeQueue
  rw [refuseFrames_eq]
  rfl

/-- What RESUME from STANDBY does before the marked entries finish (R171). -/
def resumeBegun (s : State) : State := (s.enterSession .running).dropWake.beginCommand .resume

theorem resumeFromStandby_eq (s : State) :
    s.resumeFromStandby = (finishMarked s.marked (resumeBegun s)).owedTrunksOff.oweResults := rfl

theorem sends_resumeFromStandby (s : State) :
    Sends (resumeBegun s) (finishMarked s.marked (resumeBegun s)).owedTrunksOff :=
  sends_trans (sends_finishMarked _ _) (sends_owedTrunksOff _)

end Sys2Proof.Proofs

/-! SUPPORT. Slots stay in order and pending lists stay in class order, move by move (R82, R130). -/

namespace Sys2Proof.Proofs

open Sys2Proof.Machine Sys2Proof.Laws Sys2Proof.Safety

/-! ### What both orders rest on -/

/-- Every pending list stands in class order, and slots are given in order. -/
structure Ordered (s : State) : Prop where
  lists : ListsInClassOrder s
  slots : SlotsInOrder s.director.queue

/-- From `s` to `v` both orders are kept, each by itself. -/
structure KeepsOrder (s v : State) : Prop where
  lists : ListsInClassOrder s → ListsInClassOrder v
  slots : SlotsInOrder s.director.queue → SlotsInOrder v.director.queue

theorem keepsOrder_of_eq {s v : State} (lists : v.sched.lists = s.sched.lists) (queue : v.director.queue = s.director.queue) :
    KeepsOrder s v := by
  refine ⟨fun h o => ?_, fun h => by rwa [queue]⟩
  rw [State.list, lists]
  exact h o

theorem keepsOrder_trans {r s v : State} (h : KeepsOrder r s) (k : KeepsOrder s v) : KeepsOrder r v :=
  ⟨k.lists ∘ h.lists, k.slots ∘ h.slots⟩

theorem LineEvent.keepsOrder {s v : State} (h : LineEvent s v) : KeepsOrder s v :=
  ⟨fun k o => h.order o (k o), h.slots⟩

theorem Sweeps.keepsOrder {s v : State} (h : Sweeps s v) : KeepsOrder s v := ⟨fun k o => h.order o (k o), h.slots⟩

theorem Sends.keepsOrder {s v : State} (h : Sends s v) : KeepsOrder s v := h.sweeps.keepsOrder

theorem SendsOn.keepsOrder {t : Trunk} {s v : State} (h : SendsOn t s v) : KeepsOrder s v := h.sends.keepsOrder

/-- With nothing pending and nothing received there is nothing to order. -/
theorem keepsOrder_of_empty {s v : State} (lists : ∀ o, v.list o = []) (queue : v.director.queue = []) : KeepsOrder s v := by
  refine ⟨fun _ o => ?_, fun _ => by rw [queue]; exact List.Pairwise.nil⟩
  rw [lists o]
  exact List.Pairwise.nil

theorem keepsOrder_filterFrames {s v : State} (p : QueuedFrame → Bool) (lists : v.sched.lists = s.sched.lists)
    (queue : v.director.queue = s.director.queue.filter p) : KeepsOrder s v := by
  refine ⟨(keepsOrder_of_eq (v := v.setDirector s.director) lists rfl).lists, fun h => ?_⟩
  rw [queue]
  exact List.Pairwise.filter p h

/-! ### The completion of an access -/

theorem keepsOrder_completeCheck (s : State) : KeepsOrder s s.completeCheck := by
  unfold State.completeCheck
  split <;> exact keepsOrder_of_eq rfl rfl

theorem keepsOrder_countWritten (s : State) (c : Half) : KeepsOrder s (s.countWritten c) := by
  unfold State.countWritten
  dsimp only
  split <;> exact keepsOrder_of_eq rfl rfl

theorem keepsOrder_stateWritten (s : State) (k : UnitKind) : KeepsOrder s (s.stateWritten k) := by
  cases k with
  | completion i c => exact keepsOrder_of_eq rfl rfl
  | filled i c =>
    unfold State.stateWritten State.frameWritten
    dsimp only
    split
    · exact keepsOrder_of_eq rfl rfl
    · exact keepsOrder_filterFrames (fun q => q.slot != some i) rfl rfl
  | roundResult _ => exact keepsOrder_of_eq rfl rfl
  | giveBack _ => exact keepsOrder_of_eq rfl rfl
  | header _ => exact keepsOrder_of_eq rfl rfl
  | sweeper => exact keepsOrder_of_eq rfl rfl

theorem keepsOrder_countUnitDone (s : State) (k : UnitKind) : KeepsOrder s (s.countUnitDone k) := by
  cases k with
  | completion i c => exact keepsOrder_trans (keepsOrder_of_eq (v := s.dequeue) rfl rfl) (keepsOrder_countWritten _ c)
  | filled i c => exact keepsOrder_countWritten s c
  | roundResult _ => exact keepsOrder_of_eq rfl rfl
  | giveBack _ => exact keepsOrder_of_eq rfl rfl
  | header _ => exact keepsOrder_of_eq rfl rfl
  | sweeper => exact keepsOrder_of_eq rfl rfl

theorem keepsOrder_givenBack (s : State) (k : UnitKind) : KeepsOrder s (s.givenBack k) := by
  cases k <;> exact keepsOrder_of_eq rfl rfl

theorem keepsOrder_startRead (s : State) (bs : List Byte) : KeepsOrder s (s.startRead bs) := by
  unfold State.startRead
  split
  · exact keepsOrder_of_eq rfl rfl
  · exact keepsOrder_of_empty (fun o => get_all _ o) rfl

theorem keepsOrder_reloadRead (s : State) (bs : List Byte) : KeepsOrder s (s.reloadRead bs) := by
  rw [reloadRead_eq]
  split
  · exact keepsOrder_of_eq rfl rfl
  · have taken : KeepsOrder s (settingsTaken s (settings (reloadHeader bs))) := keepsOrder_of_eq rfl rfl
    have handed := keepsOrder_trans taken (lineEvent_handSettings s (settings (reloadHeader bs))).keepsOrder
    have finished := keepsOrder_trans handed
      (keepsOrder_of_eq (v := (s.handSettings (settings (reloadHeader bs))).finishCommand .reload) rfl rfl)
    exact keepsOrder_trans finished (lineEvent_offsAtOnce _).keepsOrder

theorem keepsOrder_afterAccess (s : State) (k : UnitKind) (r : Role) (bs : List Byte) :
    KeepsOrder s (s.afterAccess k r bs) := by
  have done : KeepsOrder s s.headerDone := keepsOrder_of_eq rfl rfl
  cases r with
  | part => exact keepsOrder_of_eq rfl rfl
  | word0 => exact (sweeps_word0Read s bs).keepsOrder
  | envelope => exact (sweeps_envelopeRead s bs).keepsOrder
  | word1 => exact (sweeps_word1Read s bs).keepsOrder
  | claim => exact (sweeps_claimWritten s).keepsOrder
  | stateWrite => exact keepsOrder_stateWritten s k
  | countWrite => exact keepsOrder_countUnitDone s k
  | roundResult => exact keepsOrder_of_eq rfl rfl
  | giveBack => exact keepsOrder_givenBack s k
  | startReads => exact keepsOrder_trans done (keepsOrder_startRead _ bs)
  | startUnit => exact keepsOrder_of_eq rfl rfl
  | reloadReads => exact keepsOrder_trans done (keepsOrder_reloadRead _ bs)
  | sweepEnd => exact keepsOrder_trans done (keepsOrder_completeCheck _)
  | finalUnit =>
    exact keepsOrder_trans (keepsOrder_trans done (keepsOrder_completeCheck _)) (keepsOrder_of_eq rfl rfl)

theorem keepsOrder_completeAccess (s : State) (u : PortUnit) : KeepsOrder s (s.completeAccess u) := by
  rw [completeAccess_eq]
  refine keepsOrder_trans (s := accessLanded s u) ?_ (keepsOrder_afterAccess _ _ _ _)
  rw [accessLanded_eq]
  exact keepsOrder_of_eq rfl rfl

/-! ### Accesses that fail, and reset -/

/-- A write that failed or was abandoned changes memory and the count of free values alone. -/
theorem landPerhaps_eq (s : State) (a : Access) :
    s.landPerhaps a = { s with memory := (s.landPerhaps a).memory, free := (s.landPerhaps a).free } := by
  unfold State.landPerhaps
  cases a.op <;> rfl

theorem endAbandoned_eq (s : State) : ∃ m k p,
    s.endAbandoned = { s with memory := m, free := k, port := { s.port with abandoned := p } } := by
  unfold State.endAbandoned
  split
  · exact ⟨s.memory, s.free, s.port.abandoned, rfl⟩
  · dsimp only
    rw [landPerhaps_eq]
    exact ⟨_, _, none, rfl⟩

/-- The register window at the entry to FAULTED: the failing address, FAULT, and the command that is cut (R152, R179). -/
def faultRegs (s : State) (u : PortUnit) : Registers :=
  { s.regs with
    faultInfo := u.access.addr, intCause := s.regs.intCause ||| (1#6 <<< Cause.fault.bit)
    readBack :=
      match s.session.inProgress with
      | none => s.regs.readBack
      | some c => { code := c.code, result := .cutByFault, reason := .none } }

/-- Entry to FAULTED: what it changes, part by part (R178 to R180). -/
theorem enterFaulted_eq (s : State) (u : PortUnit) (k : FaultKind) : s.enterFaulted u k = { s with
    memory := (s.landPerhaps u.access).memory
    free := (s.landPerhaps u.access).free
    port := { s.port with unit := none }
    session := { s.session with state := .faulted, faultKind := k, inProgress := none }
    regs := faultRegs s u
    sweeper := { s.sweeper with timerRuns := false, again := false } } := by
  unfold State.enterFaulted State.cutCommand faultRegs
  dsimp only
  rw [landPerhaps_eq]
  cases h : s.session.inProgress with
  | none =>
    simp only [setSweeper_session, setRegs_session, setSession_session]
    have hs : ({ s.session with state := .faulted, faultKind := k, inProgress := none } : Session)
        = { s.session with state := .faulted, faultKind := k } := by rw [← h]
    rw [hs]
    rfl
  | some c =>
    simp only [setSweeper_session, setRegs_session, setSession_session]
    rfl

/-- A completion takes its number; no other unit has one (R141). -/
theorem numberUnit_eq (s : State) (k : UnitKind) : ∃ c v,
    s.numberUnit k = s.setResults { s.results with countCopy := c, recent := v } := by
  cases k with
  | completion i c => exact ⟨c, s.results.recent.setIfInBounds (recentPosition c) (BitVec.ofNat 16 i), rfl⟩
  | filled i c => exact ⟨c, s.results.recent.setIfInBounds (recentPosition c) (BitVec.ofNat 16 i), rfl⟩
  | roundResult i => exact ⟨s.results.countCopy, s.results.recent, rfl⟩
  | giveBack i => exact ⟨s.results.countCopy, s.results.recent, rfl⟩
  | header u => exact ⟨s.results.countCopy, s.results.recent, rfl⟩
  | sweeper => exact ⟨s.results.countCopy, s.results.recent, rfl⟩

/-- What a grant sets: the number of a completion, and the unit in hand (R141, R177). -/
theorem grant_eq (s : State) (r : Request) : ∃ c v, s.grant r = { s with
    results := { s.results with countCopy := c, recent := v }
    port :=
      { s.port with unit := some { kind := r.kind, access := r.first, timer := 0, rest := r.rest, data := [] } } } := by
  obtain ⟨c, v, h⟩ := numberUnit_eq s r.kind
  unfold State.grant
  rw [h]
  exact ⟨c, v, rfl⟩

theorem keepsOrder_acceptStop (s : State) : KeepsOrder s s.acceptStop := by
  refine keepsOrder_trans ?_ (sends_acceptStop s).keepsOrder
  rw [closeQueue_eq]
  exact keepsOrder_filterFrames (fun q => q.slot.isSome) rfl rfl

theorem keepsOrder_resumeFromStandby (s : State) : KeepsOrder s s.resumeFromStandby := by
  have begun : KeepsOrder s (resumeBegun s) := keepsOrder_of_eq rfl rfl
  rw [resumeFromStandby_eq]
  exact keepsOrder_trans (keepsOrder_trans begun (sends_resumeFromStandby s).keepsOrder) (keepsOrder_of_eq rfl rfl)

theorem move_keepsOrder {s v : State} (m : Move s v) : KeepsOrder s v := by
  have same : ∀ {v : State}, v.sched.lists = s.sched.lists → v.director.queue = s.director.queue → KeepsOrder s v :=
    keepsOrder_of_eq
  cases m with
  | stay => exact same rfl rfl
  | refused => exact same rfl rfl
  | startAccepted => exact same rfl rfl
  | pauseAccepted => exact same rfl rfl
  | resumedFromPaused => exact same rfl rfl
  | resumedFromStandby => exact keepsOrder_resumeFromStandby s
  | standbyAccepted => exact same rfl rfl
  | stopAccepted => exact keepsOrder_acceptStop s
  | reloadAccepted => exact same rfl rfl
  | reset => exact keepsOrder_of_empty (fun o => get_all _ o) rfl
  | poweredOn => exact keepsOrder_of_empty (fun o => get_all _ o) rfl
  | sweepAsked => exact (sweeps_askSweep s).keepsOrder
  | registersWritten => exact same rfl rfl
  | synced => exact keepsOrder_trans (same (v := s.openSyncWindow) rfl rfl) (sends_selectInWindows _).keepsOrder
  | windowClosed => exact same rfl rfl
  | granted r =>
    obtain ⟨c, w, h⟩ := grant_eq s r
    rw [h]
    exact same rfl rfl
  | completed u => exact keepsOrder_completeAccess s u
  | abandonedEnded =>
    obtain ⟨n, k, p, h⟩ := endAbandoned_eq s
    rw [h]
    exact same rfl rfl
  | faulted u k =>
    rw [enterFaulted_eq]
    exact same rfl rfl
  | settlingEnded => exact keepsOrder_trans (keepsOrder_completeCheck s) (keepsOrder_of_eq rfl rfl)
  | resumeEnded =>
    have owed : KeepsOrder s (s.setSession { s.session with resumeOwed := none }) := same rfl rfl
    exact keepsOrder_trans (keepsOrder_trans owed (sweeps_assignSlots _).keepsOrder) (keepsOrder_of_eq rfl rfl)
  | stoppingEnded => exact same rfl rfl
  | holdExpired t => exact (lineEvent_holdExpires s t).keepsOrder
  | edgeTaken t l => exact (lineEvent_takeEdge s t l).keepsOrder
  | replySettled t o => exact (lineEvent_settleReply s t o).keepsOrder
  | replyClosed t => exact (lineEvent_updateEngine s t _).keepsOrder
  | shapeTimed t => exact (lineEvent_shapeInSending s t).keepsOrder
  | elementEnded t => exact (lineEvent_updateEngine s t _).keepsOrder
  | leadMarked t => exact (lineEvent_updateEngine s t _).keepsOrder
  | malformedTimed t => exact (lineEvent_abandonFrame s t).keepsOrder
  | answerBegun t => exact (lineEvent_updateEngine s t _).keepsOrder
  | answerEnded t => exact (lineEvent_updateEngine s t _).keepsOrder
  | foreignEnded t => exact (lineEvent_foreignFrameEnds s t).keepsOrder
  | stuck t => exact (lineEvent_stuckEvent s t).keepsOrder
  | recovered t => exact (lineEvent_recoverTrunk s t).keepsOrder
  | timingTaken t => exact (lineEvent_updateEngine s t _).keepsOrder
  | trunkOff t => exact (lineEvent_trunkGoesOff s t).keepsOrder
  | restEnded i t => exact (sendsOn_endRest s t i).keepsOrder
  | expired i t e => exact (sendsOn_expireEntry s t e).keepsOrder
  | dueTime i r => exact (sendsOn_dueTimeOf s r).keepsOrder
  | roundJoined t => exact (sendsOn_joinRound s t).keepsOrder

theorem tick_keepsOrder (s : State) : KeepsOrder s s.tick := by
  obtain ⟨d, m, k, o, h⟩ := tick_eq s
  rw [h]
  exact keepsOrder_of_eq rfl rfl

/-! ### The obligation on slots -/

/-- Settles O58: every move keeps the slots in order; only a slot assignment gives one, and a frame joins without one. -/
theorem stepKeepsSlotsInOrder : Obligations.StepKeepsSlotsInOrder := by
  intro s h
  exact step_keeps (P := fun v => SlotsInOrder v.director.queue) (fun _ _ k m => (move_keepsOrder m).slots k)
    (fun _ _ _ k => k) (fun _ _ _ k => k) (fun _ _ _ k => k) (fun r k => (tick_keepsOrder r).slots k) s h

end Sys2Proof.Proofs

/-! SUPPORT. OFF of mode and of state go together (R24, R46): an engine leaves OFF by START and RELOAD alone, in mode and
state at once, and every other event leaves an engine that is not OFF so. -/

namespace Sys2Proof.Proofs

open Sys2Proof.Machine Sys2Proof.Laws Sys2Proof.Safety

/-- Every engine agrees in mode and state on OFF. -/
def AllOffAgree (s : State) : Prop := ∀ o : Trunk, OffAgrees (s.engine o)

/-! ### One engine -/

theorem atRest_ne_off {x : EngineState} (h : x.atRest = true) : x ≠ .off := by
  rintro rfl
  cases h

theorem isSending_ne_off {x : EngineState} (h : x.isSending = true) : x ≠ .off := by
  rintro rfl
  cases h

theorem restState_ne_off (e : Engine) : e.restState ≠ .off := by
  unfold Engine.restState
  split <;> simp

/-- An engine that is not OFF stays so when its mode and pending OFF stay and its state is not OFF. -/
theorem offAgrees_of_live {e g : Engine} (h : OffAgrees e) (mode : g.mode = e.mode)
    (he : e.state ≠ .off) (hg : g.state ≠ .off) : OffAgrees g := by
  have hm : e.mode ≠ .off := fun k => he (h.1.1 k)
  refine ⟨⟨fun k => absurd (mode ▸ k) hm, fun k => absurd k hg⟩, fun k => absurd (mode ▸ k) hm⟩

theorem offAgrees_of_same {e g : Engine} (h : OffAgrees e) (mode : g.mode = e.mode) (off : g.pendingOff = e.pendingOff)
    (state : g.state = e.state) : OffAgrees g := by
  rw [OffAgrees, mode, off, state]
  exact h

theorem offAgrees_of_off {g : Engine} (mode : g.mode = .off) (state : g.state = .off) (off : g.pendingOff = false) :
    OffAgrees g := ⟨⟨fun _ => state, fun _ => mode⟩, fun _ => off⟩

theorem offAgrees_of_on {g : Engine} (mode : g.mode ≠ .off) (state : g.state ≠ .off) : OffAgrees g :=
  ⟨⟨fun h => absurd h mode, fun h => absurd h state⟩, fun h => absurd h mode⟩

theorem offAgrees_rearmed {e g : Engine} (h : OffAgrees e) (r : Rearmed e g) : OffAgrees g := by
  obtain ⟨hg, hs⟩ := r
  have mode : g.mode = e.mode := by rw [hg]
  have off : g.pendingOff = e.pendingOff := by rw [hg]
  rcases hs with hs | ⟨he, hg⟩
  · exact offAgrees_of_same h mode off hs
  · exact offAgrees_of_live h mode (atRest_ne_off he) (atRest_ne_off hg)

/-- Only an engine that sends or follows a frame sees more in an edge than the edge. -/
theorem judgeEdge_live {e : Engine} {l : Level} (h : e.judgeEdge l ≠ .plain) : e.state ≠ .off := by
  intro hs
  cases l <;> simp [Engine.judgeEdge, hs, EngineState.isSending, Engine.followsForeign] at h

theorem beginMark_mode (e : Engine) : e.beginMark.mode = e.mode ∧ e.beginMark.pendingOff = e.pendingOff := by
  unfold Engine.beginMark
  split
  · exact ⟨rfl, rfl⟩
  · split <;> exact ⟨rfl, rfl⟩
  · exact ⟨rfl, rfl⟩

theorem beginMark_off (e : Engine) : (e.beginMark.state = .off ↔ e.state = .off) := by
  unfold Engine.beginMark
  split
  · rename_i hs
    simp [hs]
  · rename_i hs _
    split <;> simp [hs]
  · exact Iff.rfl

theorem offAgrees_beginMark {e : Engine} (h : OffAgrees e) : OffAgrees e.beginMark := by
  obtain ⟨mode, off⟩ := beginMark_mode e
  rw [OffAgrees, mode, off, beginMark_off]
  exact h

theorem offAgrees_noteEdge {e : Engine} (h : OffAgrees e) (l : Level) : OffAgrees (e.noteEdge l) := h

theorem offAgrees_plainEdge {e : Engine} (h : OffAgrees e) (l : Level) : OffAgrees (e.plainEdge l) := by
  unfold Engine.plainEdge Engine.transmitterAfterEdge
  split
  · exact offAgrees_beginMark (offAgrees_noteEdge h _)
  · exact h
  · exact h

theorem offAgrees_nextElement {e : Engine} (h : OffAgrees e) : OffAgrees e.nextElement := by
  unfold Engine.nextElement
  split
  · exact h
  · exact offAgrees_beginMark h
  all_goals exact h

theorem takeTiming_mode (e : Engine) :
    e.takeTiming.mode = e.mode ∧ e.takeTiming.state = e.state ∧ e.takeTiming.pendingOff = e.pendingOff := by
  unfold Engine.takeTiming
  split <;> exact ⟨rfl, rfl, rfl⟩

theorem offAgrees_takeTiming {e : Engine} (h : OffAgrees e) : OffAgrees e.takeTiming := by
  obtain ⟨mode, state, off⟩ := takeTiming_mode e
  exact offAgrees_of_same h mode off state

theorem reloadTiming_mode (e : Engine) (v : Timing) : (e.reloadTiming v).mode = e.mode
    ∧ (e.reloadTiming v).state = e.state ∧ (e.reloadTiming v).pendingOff = e.pendingOff := by
  unfold Engine.reloadTiming
  split
  · exact ⟨rfl, rfl, rfl⟩
  · dsimp only
    split
    · exact takeTiming_mode { e with pendingTiming := some v }
    · exact ⟨rfl, rfl, rfl⟩

theorem offAgrees_reloadTiming {e : Engine} (h : OffAgrees e) (v : Timing) : OffAgrees (e.reloadTiming v) := by
  obtain ⟨mode, state, off⟩ := reloadTiming_mode e v
  exact offAgrees_of_same h mode off state

theorem offAgrees_enterFromOff (e : Engine) {m : Mode} (hm : m ≠ .off) : OffAgrees (e.enterFromOff m) :=
  offAgrees_of_on hm (by simp [Engine.enterFromOff])

theorem offAgrees_enterOff (e : Engine) : OffAgrees e.enterOff := offAgrees_of_off rfl rfl rfl

theorem offAgrees_endFrame {e : Engine} (h : OffAgrees e) (live : e.state ≠ .off) : OffAgrees e.endFrame :=
  offAgrees_of_live h rfl live (restState_ne_off e)

theorem offAgrees_tick {e : Engine} (h : OffAgrees e) : OffAgrees e.tick := by
  unfold Engine.tick
  dsimp only
  split <;> exact h

/-! ### The engines of a state -/

theorem allOff_congr {s v : State} (h : v.engines = s.engines) (k : AllOffAgree s) : AllOffAgree v := by
  intro o
  rw [State.engine, h]
  exact k o

theorem allOff_sends {s v : State} (h : Sends s v) (k : AllOffAgree s) : AllOffAgree v :=
  fun o => offAgrees_rearmed (k o) (h.engine o)

theorem allOff_sendsOn {t : Trunk} {s v : State} (h : SendsOn t s v) (k : AllOffAgree s) : AllOffAgree v :=
  allOff_sends h.sends k

theorem allOff_sweeps {s v : State} (h : Sweeps s v) (k : AllOffAgree s) : AllOffAgree v :=
  fun o => offAgrees_rearmed (k o) (h.engine o)

theorem allOff_setEngine {s : State} {t : Trunk} {e : Engine} (k : AllOffAgree s) (h : OffAgrees e) :
    AllOffAgree (s.setEngine t e) := by
  intro o
  by_cases ho : o = t
  · subst ho
    rwa [engine_setEngine_same]
  · rw [engine_setEngine_other s t o e ho]
    exact k o

theorem allOff_updateEngine {s : State} {t : Trunk} {f : Engine → Engine} (k : AllOffAgree s)
    (h : OffAgrees (f (s.engine t))) : AllOffAgree (s.updateEngine t f) := allOff_setEngine k h

@[simp] theorem engine_updateEngine_same (s : State) (t : Trunk) (f : Engine → Engine) :
    (s.updateEngine t f).engine t = f (s.engine t) := engine_setEngine_same s t _

theorem allOff_of {s : State} {f : Trunk → Engine} (h : s.engines = Four.of f) (k : ∀ o, OffAgrees (f o)) :
    AllOffAgree s := by
  intro o
  rw [State.engine, h, get_of]
  exact k o

/-! ### Events of an engine -/

theorem allOff_attemptEnds {s : State} (k : AllOffAgree s) (t : Trunk) (o : AttemptOutcome) :
    AllOffAgree (s.attemptEnds t o) := by
  unfold State.attemptEnds
  split
  · exact k
  · exact allOff_sendsOn (sendsOn_outcome _ t _ o) (allOff_updateEngine k (k t))

theorem allOff_shapeInSending {s : State} (k : AllOffAgree s) {t : Trunk} (live : (s.engine t).state ≠ .off) :
    AllOffAgree (s.shapeInSending t) := by
  have ended : AllOffAgree (s.updateEngine t Engine.endFrame) := allOff_updateEngine k (offAgrees_endFrame (k t) live)
  exact allOff_attemptEnds (s := (s.updateEngine t Engine.endFrame).tally t Tally.addShape) ended t _

theorem allOff_abandonFrame {s : State} (k : AllOffAgree s) {t : Trunk} (live : (s.engine t).state ≠ .off) :
    AllOffAgree (s.abandonFrame t) := by
  have ended : AllOffAgree (s.updateEngine t Engine.endFrame) := allOff_updateEngine k (offAgrees_endFrame (k t) live)
  exact allOff_sendsOn (s := (s.updateEngine t Engine.endFrame).malformedSeen t) (sendsOn_select _ t) ended

theorem allOff_foreignFrameEnds {s : State} (k : AllOffAgree s) {t : Trunk} (live : (s.engine t).state ≠ .off) :
    AllOffAgree (s.foreignFrameEnds t) :=
  allOff_sendsOn (sendsOn_select _ t) (allOff_updateEngine k (offAgrees_endFrame (k t) live))

/-- The decision on a frame touches no engine. -/
theorem decideFrame_engines (s : State) (t : Trunk) (g : GoodFrame) : (s.decideFrame t g).1.engines = s.engines := by
  have assigned : ∀ v : State, v.assignIfRunning.engines = v.engines := by
    intro v
    unfold State.assignIfRunning
    split <;> rfl
  have reported : ∀ v : State, (v.reportAcceptance t).engines = v.engines := by
    intro v
    unfold State.reportAcceptance
    split <;> rfl
  have known : ∀ v : State, (v.rememberUnicast t g).engines = v.engines := by
    intro v
    unfold State.rememberUnicast
    split <;> rfl
  unfold State.decideFrame
  repeat' split
  · rfl
  · rfl
  · unfold State.acceptFrame
    dsimp only
    split
    · rw [reported, known]
      rfl
    · rw [assigned, known]
      rfl
  · rfl
  · rfl

theorem allOff_goodFrameAtRise {s : State} (k : AllOffAgree s) {t : Trunk} (live : (s.engine t).state ≠ .off) :
    AllOffAgree (s.goodFrameAtRise t) := by
  unfold State.goodFrameAtRise
  dsimp only
  generalize hr : s.updateEngine t (fun e => { e.noteEdge .high with buffer := Buffer.cleared false }) = r
  generalize frameOfOctets (s.engine t).buffer.octets = g
  have kr : AllOffAgree r := hr ▸ allOff_updateEngine k (k t)
  have engines := decideFrame_engines r t g
  have kd : AllOffAgree (r.decideFrame t g).1 := allOff_congr engines kr
  have live' : ((r.decideFrame t g).1.engine t).state ≠ .off := by
    rw [State.engine, engines, ← State.engine, ← hr, engine_updateEngine_same]
    exact live
  split
  · refine allOff_updateEngine kd ?_
    cases (r.decideFrame t g).2 with
    | silent => exact kd t
    | accept => exact offAgrees_of_live (kd t) rfl live' (by simp [Engine.openWindow])
    | busy => exact offAgrees_of_live (kd t) rfl live' (by simp [Engine.openWindow])
  · exact allOff_foreignFrameEnds kd live'

theorem allOff_takeEdge {s : State} (k : AllOffAgree s) (t : Trunk) (l : Level) : AllOffAgree (s.takeEdge t l) := by
  have noted : AllOffAgree (s.updateEngine t (fun e => e.noteEdge l)) := allOff_updateEngine k (k t)
  have live : (s.engine t).judgeEdge l ≠ .plain → ((s.updateEngine t (fun e => e.noteEdge l)).engine t).state ≠ .off := by
    intro h
    rw [engine_updateEngine_same]
    show (s.engine t).state ≠ .off
    exact judgeEdge_live h
  unfold State.takeEdge
  split
  · exact allOff_updateEngine k (offAgrees_plainEdge (k t) l)
  · rename_i h
    have lost : AllOffAgree (s.updateEngine t Engine.afterLoss) :=
      allOff_updateEngine k (offAgrees_of_live (k t) rfl (judgeEdge_live (by rw [h]; simp)) (by simp [Engine.afterLoss]))
    unfold State.lostAtFall
    split
    · exact lost
    · exact allOff_sendsOn (s := (s.updateEngine t Engine.afterLoss).tally t Tally.addLoss) (sendsOn_outcome _ t _ _) lost
  · rename_i h
    have ended := allOff_shapeInSending noted (live (by rw [h]; simp))
    exact allOff_updateEngine ended (ended t)
  · rename_i h
    have ended := allOff_abandonFrame noted (live (by rw [h]; simp))
    exact allOff_updateEngine ended (ended t)
  · rename_i h
    exact allOff_goodFrameAtRise k (judgeEdge_live (by rw [h]; simp))
  · rename_i h
    have hl : (s.engine t).state ≠ .off := judgeEdge_live (l := l) (by rw [h]; simp)
    generalize hr : (s.updateEngine t (fun e => e.noteEdge .high)).tally t Tally.addSent = r
    have kr : AllOffAgree r := hr ▸ allOff_updateEngine (f := fun e => e.noteEdge .high) k (k t)
    have live' : (r.engine t).state ≠ .off := by
      have : r.engine t = (s.engine t).noteEdge .high := by
        rw [← hr]
        exact engine_updateEngine_same s t (fun e => e.noteEdge .high)
      rw [this]
      exact hl
    unfold State.tailAtRise
    dsimp only
    rw [hr]
    split
    · exact allOff_updateEngine kr (offAgrees_of_live (kr t) rfl live' (by simp [Engine.awaitReply]))
    · exact allOff_attemptEnds (allOff_updateEngine kr (offAgrees_endFrame (kr t) live')) t _

theorem holdDue_live {s : State} {t : Trunk} (h : s.holdDue t = true) : (s.engine t).state = .holding := by
  have h := Bool.and_elim_left (Bool.and_elim_left (Bool.and_elim_right h))
  simpa using h

theorem allOff_startLead {s : State} (k : AllOffAgree s) {t : Trunk} (live : (s.engine t).state = .holding) (e : Entry) :
    AllOffAgree (s.startLead t e) := by
  have marked : AllOffAgree (s.updateEntry t e.index Entry.started) := allOff_congr rfl k
  refine allOff_updateEngine marked (offAgrees_of_live (k t) rfl ?_ ?_)
  · rw [live]
    simp
  · simp [Engine.beginLead]

theorem allOff_holdExpires {s : State} (k : AllOffAgree s) {t : Trunk} (h : s.holdDue t = true) :
    AllOffAgree (s.holdExpires t) := by
  have again := allOff_sendsOn (sendsOn_trans (sendsOn_withdraw s t) (sendsOn_select _ t)) k
  unfold State.holdExpires
  split
  · exact allOff_startLead k (holdDue_live h) _
  · dsimp only
    split
    · split
      · exact allOff_startLead again (holdDue_live ‹_›) _
      · exact again
    · exact again

theorem allOff_trunkGoesOff {s : State} (k : AllOffAgree s) (t : Trunk) : AllOffAgree (s.trunkGoesOff t) :=
  allOff_sendsOn (sendsOn_takeOffReport _ t) (allOff_updateEngine k (offAgrees_enterOff _))

/-! ### START, RELOAD, STOP -/

theorem engine_withdraw_state {s : State} {t : Trunk} : Rearmed (s.engine t) ((s.withdraw t).engine t) :=
  (sendsOn_withdraw s t).engine

theorem allOff_reloadMode {s : State} (k : AllOffAgree s) (t : Trunk) (m : Mode) : AllOffAgree (s.reloadMode t m) := by
  have withdrawn := allOff_sendsOn (sendsOn_withdraw s t) k
  have mode : ((s.withdraw t).engine t).mode = (s.engine t).mode := by rw [(engine_withdraw_state (s := s)).1]
  have live : ∀ {x : State}, OffAgrees (x.engine t) → (x.engine t).mode ≠ .off → (x.engine t).state ≠ .off :=
    fun h hm hs => hm (h.1.2 hs)
  unfold State.reloadMode
  split
  · exact k
  · exact allOff_updateEngine k (offAgrees_enterFromOff _ (by simp))
  · exact allOff_updateEngine k (offAgrees_enterFromOff _ (by simp))
  · rename_i hm
    have hm' : ((s.withdraw t).engine t).mode ≠ .off := by rw [mode]; exact hm
    exact allOff_updateEngine withdrawn (offAgrees_of_on hm' (live (withdrawn t) hm'))
  · rename_i hm
    have hm' : ((s.withdraw t).engine t).mode ≠ .off := by rw [mode]; exact hm
    exact allOff_updateEngine withdrawn (offAgrees_of_on (by simp [Engine.changeMode]) (live (withdrawn t) hm'))
  · rename_i hm
    exact allOff_updateEngine k (offAgrees_of_on (by simp [Engine.changeMode]) (live (k t) hm))

theorem allOff_reloadTrunk {s : State} (k : AllOffAgree s) (t : Trunk) (r : TrunkRecord) :
    AllOffAgree (s.reloadTrunk t r) := by
  have timed : AllOffAgree (s.updateEngine t (fun e => e.reloadTiming r.timing)) :=
    allOff_updateEngine k (offAgrees_reloadTiming (k t) _)
  have tables := allOff_congr
    (v := (((s.updateEngine t (fun e => e.reloadTiming r.timing)).reloadMode t r.mode).reloadListen t r.listen).reloadSched
      t r) rfl (allOff_reloadMode timed t r.mode)
  unfold State.reloadTrunk
  dsimp only
  split
  · exact allOff_sendsOn (sendsOn_select _ t) tables
  · exact tables

theorem allOff_offAtOnce {s : State} (k : AllOffAgree s) (t : Trunk) : AllOffAgree (s.offAtOnce t) := by
  unfold State.offAtOnce
  split
  · exact allOff_trunkGoesOff k t
  · exact k

theorem allOff_reloadRead {s : State} (k : AllOffAgree s) (bs : List Byte) : AllOffAgree (s.reloadRead bs) := by
  rw [reloadRead_eq]
  split
  · exact k
  · have taken : AllOffAgree (settingsTaken s (settings (reloadHeader bs))) := k
    have handed : AllOffAgree (s.handSettings (settings (reloadHeader bs))) := by
      rw [handSettings_eq]
      exact allOff_reloadTrunk (allOff_reloadTrunk (allOff_reloadTrunk (allOff_reloadTrunk taken 0 _) 1 _) 2 _) 3 _
    have finished : AllOffAgree ((s.handSettings (settings (reloadHeader bs))).finishCommand .reload) := handed
    exact allOff_offAtOnce (allOff_offAtOnce (allOff_offAtOnce (allOff_offAtOnce finished 0) 1) 2) 3

theorem offAgrees_enterMode {e : Engine} (h : OffAgrees e) (m : Mode) : OffAgrees (e.enterMode m) := by
  cases m with
  | off => exact h
  | listen => exact offAgrees_enterFromOff e (by simp)
  | active => exact offAgrees_enterFromOff e (by simp)

theorem completeCheck_engines (s : State) : s.completeCheck.engines = s.engines := by
  unfold State.completeCheck
  split <;> rfl

theorem allOff_afterAccess {s : State} (k : AllOffAgree s) (u : UnitKind) (r : Role) (bs : List Byte) :
    AllOffAgree (s.afterAccess u r bs) := by
  cases r with
  | part => exact k
  | word0 => exact allOff_sweeps (sweeps_word0Read s bs) k
  | envelope => exact allOff_sweeps (sweeps_envelopeRead s bs) k
  | word1 => exact allOff_sweeps (sweeps_word1Read s bs) k
  | claim => exact allOff_sweeps (sweeps_claimWritten s) k
  | stateWrite =>
    refine allOff_congr ?_ k
    unfold State.afterAccess State.stateWritten State.frameWritten
    dsimp only
    cases u with
    | filled i c =>
      dsimp only
      split <;> rfl
    | completion _ _ | roundResult _ | giveBack _ | header _ | sweeper => rfl
  | countWrite =>
    refine allOff_congr ?_ k
    unfold State.afterAccess State.countUnitDone State.countWritten
    dsimp only
    cases u with
    | completion i c =>
      dsimp only
      split <;> rfl
    | filled i c =>
      dsimp only
      split <;> rfl
    | roundResult _ | giveBack _ | header _ | sweeper => rfl
  | roundResult => exact k
  | giveBack =>
    refine allOff_congr ?_ k
    cases u <;> rfl
  | startReads =>
    unfold State.afterAccess State.startRead
    dsimp only
    split
    · exact k
    · exact allOff_of (f := fun o => (s.engine o).loadTiming ((settings (startHeader bs)).records.get o).timing) rfl fun o =>
        offAgrees_of_same (k o) rfl rfl rfl
  | startUnit => exact allOff_of rfl fun o => offAgrees_enterMode (k o) _
  | reloadReads => exact allOff_reloadRead (s := s.headerDone) k bs
  | sweepEnd => exact allOff_congr (completeCheck_engines s.headerDone) k
  | finalUnit =>
    exact allOff_of (f := fun o => (s.headerDone.completeCheck.engine o).stopOff) rfl fun o => offAgrees_enterOff _

theorem allOff_closeQueue {s : State} (k : AllOffAgree s) : AllOffAgree s.closeQueue := by
  refine allOff_congr ?_ k
  rw [closeQueue_eq]

theorem allOff_oweResults {s : State} (k : AllOffAgree s) : AllOffAgree s.oweResults := k

theorem move_keeps_allOff {s v : State} (k : AllOffAgree s) (m : Move s v) : AllOffAgree v := by
  have same : ∀ {v : State}, v.engines = s.engines → AllOffAgree v := fun h => allOff_congr h k
  cases m with
  | stay => exact k
  | refused => exact same rfl
  | startAccepted => exact same rfl
  | pauseAccepted => exact same rfl
  | resumedFromPaused => exact same rfl
  | resumedFromStandby =>
    rw [resumeFromStandby_eq]
    exact allOff_oweResults (allOff_sends (sends_resumeFromStandby s) (same (v := resumeBegun s) rfl))
  | standbyAccepted => exact same rfl
  | stopAccepted => exact allOff_sends (sends_acceptStop s) (allOff_closeQueue (same (v := stopBegun s) rfl))
  | reloadAccepted => exact same rfl
  | reset => exact allOff_of (f := fun o => (s.engine o).afterReset) rfl fun o => offAgrees_of_off rfl rfl rfl
  | poweredOn => exact allOff_of (f := fun o => (s.dropAccess.engine o).afterReset) rfl fun o => offAgrees_of_off rfl rfl rfl
  | sweepAsked => exact allOff_sweeps (sweeps_askSweep s) k
  | registersWritten => exact same rfl
  | synced => exact allOff_sends (sends_selectInWindows s.openSyncWindow) (same (v := s.openSyncWindow) rfl)
  | windowClosed => exact same rfl
  | granted r =>
    obtain ⟨c, w, h⟩ := grant_eq s r
    rw [h]
    exact same rfl
  | completed u =>
    rw [completeAccess_eq]
    refine allOff_afterAccess ?_ _ _ _
    rw [accessLanded_eq]
    exact same rfl
  | abandonedEnded =>
    obtain ⟨n, j, p, h⟩ := endAbandoned_eq s
    rw [h]
    exact same rfl
  | faulted u j =>
    rw [enterFaulted_eq]
    exact same rfl
  | settlingEnded => exact same (completeCheck_engines s)
  | resumeEnded => exact same rfl
  | stoppingEnded => exact same rfl
  | holdExpired t h => exact allOff_holdExpires k h
  | edgeTaken t l => exact allOff_takeEdge k t l
  | replySettled t o =>
    unfold State.settleReply
    split
    · exact allOff_attemptEnds (s := s.tally t Tally.addShape) k t o
    · exact allOff_attemptEnds k t o
  | replyClosed t h =>
    refine allOff_updateEngine k (offAgrees_endFrame (k t) ?_)
    have hs : (s.engine t).state = .replyWait := by simpa using Bool.and_elim_left h
    rw [hs]
    simp
  | shapeTimed t h => exact allOff_shapeInSending k (isSending_ne_off (Bool.and_elim_left h))
  | elementEnded t => exact allOff_updateEngine k (offAgrees_nextElement (k t))
  | leadMarked t h =>
    have hs := atRest_ne_off (Bool.and_elim_left (Bool.and_elim_left (Bool.and_elim_left h)))
    exact allOff_updateEngine k (offAgrees_of_live (k t) rfl hs (by simp [Engine.beginReceiving]))
  | malformedTimed t h =>
    refine allOff_abandonFrame k fun hs => ?_
    simp [Engine.malformedByTime, Engine.followsForeign, hs] at h
  | answerBegun t => exact allOff_updateEngine k (k t)
  | answerEnded t => exact allOff_updateEngine k (k t)
  | foreignEnded t h =>
    refine allOff_foreignFrameEnds k fun hs => ?_
    simp [Engine.foreignCloseDue, hs] at h
  | stuck t h =>
    have hs := atRest_ne_off (Bool.and_elim_left (Bool.and_elim_left h))
    exact allOff_updateEngine (f := Engine.becomeStuck) k
      (offAgrees_of_live (k t) rfl hs (by simp [Engine.becomeStuck]))
  | recovered t h =>
    have hs : (s.engine t).state = .stuck := by simpa using Bool.and_elim_left (Bool.and_elim_left h)
    exact allOff_updateEngine (f := Engine.recover) k
      (offAgrees_of_live (k t) rfl (by rw [hs]; simp) (restState_ne_off _))
  | timingTaken t =>
    refine allOff_updateEngine k ?_
    split
    · exact offAgrees_takeTiming (k t)
    · exact offAgrees_takeTiming (k t)
  | trunkOff t => exact allOff_trunkGoesOff k t
  | restEnded i t => exact allOff_sendsOn (sendsOn_endRest s t i) k
  | expired i t e => exact allOff_sendsOn (sendsOn_expireEntry s t e) k
  | dueTime i r => exact allOff_sendsOn (sendsOn_dueTimeOf s r) k
  | roundJoined t => exact allOff_sendsOn (sendsOn_joinRound s t) k

/-! ### The obligation -/

/-- Settles O60: every move keeps the lists in class order, where entries join by class and others only leave or change
their condition; and every move of an engine's mode or state to or from OFF is one of both. -/
theorem stepKeepsClassOrder : Obligations.StepKeepsClassOrder := by
  refine ⟨fun s h => ?_, fun s h => ?_⟩
  · exact step_keeps (P := ListsInClassOrder) (fun _ _ k m => (move_keepsOrder m).lists k) (fun _ _ _ k => k)
      (fun _ _ _ k => k) (fun _ _ _ k => k) (fun r k => (tick_keepsOrder r).lists k) s h
  · refine step_keeps (P := AllOffAgree) (fun _ _ k m => move_keeps_allOff k m) (fun _ _ _ k => k) (fun _ _ _ k => k)
      (fun r t low k => allOff_updateEngine k (k t)) (fun r k => ?_) s h
    obtain ⟨d, m, n, o, ht⟩ := tick_eq r
    rw [ht]
    exact allOff_of rfl fun o => offAgrees_tick (k o)

end Sys2Proof.Proofs

/-! SUPPORT. WAKE stands in STANDBY alone, where the port holds no unit; and the completion count in memory lags the
number last given by the completion in hand alone (R141, R143, R169, R170). -/

namespace Sys2Proof.Proofs

open Sys2Proof.Machine Sys2Proof.Laws Sys2Proof.Safety

/-! ### Moves that neither the session state, the port nor the counts notice -/

/-- From `s` to `v` the session state, the unit in hand and the two counts stay, and WAKE is asserted in STANDBY alone. -/
structure Calm (s v : State) : Prop where
  state : v.session.state = s.session.state
  unit : v.port.unit = s.port.unit
  written : v.results.written = s.results.written
  countCopy : v.results.countCopy = s.results.countCopy
  wake : v.standby.wake = true → s.standby.wake = true ∨ s.session.state = .standby

theorem calm_refl (s : State) : Calm s s := ⟨rfl, rfl, rfl, rfl, .inl⟩

theorem LineEvent.calm {s v : State} (h : LineEvent s v) : Calm s v :=
  ⟨by rw [h.elsewhere.2.1], by rw [h.elsewhere.2.2.1], h.written, h.countCopy, h.wake⟩

theorem Sweeps.calm {s v : State} (h : Sweeps s v) : Calm s v :=
  ⟨by rw [h.session], by rw [h.bus.2.1], by rw [h.results], by rw [h.results], fun k => .inl (h.standby ▸ k)⟩

theorem SendsOn.calm {t : Trunk} {s v : State} (h : SendsOn t s v) : Calm s v := h.lineEvent.calm

theorem calm_trans {r s v : State} (h : Calm r s) (k : Calm s v) : Calm r v where
  state := k.state.trans h.state
  unit := k.unit.trans h.unit
  written := k.written.trans h.written
  countCopy := k.countCopy.trans h.countCopy
  wake := fun w => (k.wake w).elim h.wake fun st => .inr (h.state ▸ st)

theorem Calm.keepsWake {s v : State} (h : Calm s v) (k : WakeOnlyInStandby s) : WakeOnlyInStandby v := by
  obtain ⟨wake, unit⟩ := k
  refine ⟨fun w => ?_, fun st => ?_⟩
  · rw [h.state]
    exact (h.wake w).elim wake id
  · rw [h.unit]
    exact unit (h.state ▸ st)

/-- The count relation when the session's place in FAULTED, the port and the counts are given. -/
theorem countsAgree_congr {s v : State} (state : v.session.state = .faulted ↔ s.session.state = .faulted)
    (unit : v.port.unit = s.port.unit) (written : v.results.written = s.results.written)
    (countCopy : v.results.countCopy = s.results.countCopy) (k : CountsAgree s) : CountsAgree v := by
  unfold CountsAgree at k ⊢
  rw [unit, written, countCopy, state]
  exact k

theorem Calm.keepsCounts {s v : State} (h : Calm s v) (k : CountsAgree s) : CountsAgree v :=
  countsAgree_congr (by rw [h.state]) h.unit h.written h.countCopy k

/-- With the counts equal and nothing faulted, the count relation holds whatever uncounted unit is in hand. -/
theorem countsAgree_of_eq {s : State} (live : s.session.state ≠ .faulted)
    (unit : ∀ u, s.port.unit = some u → numberOf u.kind = none) (eq : s.results.written = s.results.countCopy) :
    CountsAgree s := by
  refine ⟨fun h => absurd h live, ?_⟩
  cases h : s.port.unit with
  | none => exact .inl eq
  | some u =>
    dsimp only
    rw [unit u h]
    exact eq

/-! ### A command moves the session on -/

/-- From `s` to `v` a command or a moment has moved the session, outside FAULTED; STANDBY is entered with a free port and
WAKE stands in it alone. -/
structure MovesOn (s v : State) : Prop where
  before : s.session.state ≠ .faulted
  after : v.session.state ≠ .faulted
  unit : v.port.unit = s.port.unit
  written : v.results.written = s.results.written
  countCopy : v.results.countCopy = s.results.countCopy
  wake : WakeOnlyInStandby s → WakeOnlyInStandby v

theorem MovesOn.keepsCounts {s v : State} (h : MovesOn s v) (k : CountsAgree s) : CountsAgree v :=
  countsAgree_congr ⟨fun f => absurd f h.after, fun f => absurd f h.before⟩ h.unit h.written h.countCopy k

/-- Outside STANDBY, WAKE need only be off. -/
theorem wakeOnlyInStandby_of_off {v : State} (wake : v.standby.wake = false) (state : v.session.state ≠ .standby) :
    WakeOnlyInStandby v := ⟨fun w => absurd (wake.symm.trans w) (by simp), fun st => absurd st state⟩

theorem wake_off {s : State} (k : WakeOnlyInStandby s) (state : s.session.state ≠ .standby) : s.standby.wake = false := by
  cases h : s.standby.wake with
  | false => rfl
  | true => exact absurd (k.1 h) state

/-- A session moved from one state outside STANDBY and FAULTED to another. -/
theorem movesOn_of {s v : State} (fromStandby : s.session.state ≠ .standby) (before : s.session.state ≠ .faulted)
    (toStandby : v.session.state ≠ .standby) (after : v.session.state ≠ .faulted) (unit : v.port.unit = s.port.unit)
    (written : v.results.written = s.results.written) (countCopy : v.results.countCopy = s.results.countCopy)
    (wake : v.standby.wake = s.standby.wake) : MovesOn s v :=
  ⟨before, after, unit, written, countCopy,
    fun k => wakeOnlyInStandby_of_off (wake.trans (wake_off k fromStandby)) toStandby⟩

theorem movesOn_acceptStop {s : State} (before : s.session.state ≠ .faulted) : MovesOn s s.acceptStop := by
  have calm : Calm (stopBegun s).closeQueue s.acceptStop := (sends_acceptStop s).lineEvent.calm
  have closed : Calm (stopBegun s) (stopBegun s).closeQueue := by
    rw [closeQueue_eq]
    exact ⟨rfl, rfl, rfl, rfl, .inl⟩
  have all := calm_trans closed calm
  have state : s.acceptStop.session.state = .stopping := all.state
  refine ⟨before, by simp [state], all.unit, all.written, all.countCopy, fun _ => ?_⟩
  refine wakeOnlyInStandby_of_off ?_ (by simp [state])
  rw [(sends_acceptStop s).standby, closeQueue_eq]
  rfl

theorem movesOn_resumeFromStandby {s : State} (before : s.session.state ≠ .faulted) : MovesOn s s.resumeFromStandby := by
  have all : Calm (resumeBegun s) s.resumeFromStandby :=
    calm_trans (sends_resumeFromStandby s).lineEvent.calm ⟨rfl, rfl, rfl, rfl, .inl⟩
  have state : s.resumeFromStandby.session.state = .running := all.state
  refine ⟨before, by simp [state], all.unit, all.written, all.countCopy, fun _ => ?_⟩
  refine wakeOnlyInStandby_of_off ?_ (by simp [state])
  rw [resumeFromStandby_eq]
  exact congrArg Standby.wake (sends_resumeFromStandby s).standby

theorem completeCheck_calm (s : State) : Calm s s.completeCheck := by
  unfold State.completeCheck
  split <;> exact ⟨rfl, rfl, rfl, rfl, .inl⟩

theorem movesOn_enterStandby {s : State} (guard : s.settled = true) : MovesOn s s.enterStandby := by
  have calm := completeCheck_calm s
  have settling : s.session.state = .settling := by
    have := Bool.and_elim_left (Bool.and_elim_left (Bool.and_elim_left (Bool.and_elim_left (Bool.and_elim_left
      (Bool.and_elim_left guard)))))
    simpa using this
  have free : s.port.unit = none := by simpa using Bool.and_elim_right guard
  refine ⟨by simp [settling], nofun, calm.unit, calm.written, calm.countCopy, fun _ => ?_⟩
  exact ⟨fun _ => rfl, fun _ => calm.unit.trans free⟩

/-! ### The grant -/

/-- A request's unit has the roles of its kind, in their order (R176). -/
structure WellFormed (r : Request) : Prop where
  roles : r.kind ≠ .sweeper → (r.first :: r.rest).map Access.role = rolesOf r.kind

theorem requestOf_wellFormed {k : UnitKind} {l : List Access} {r : Request} (h : requestOf k l = some r)
    (roles : k ≠ .sweeper → l.map Access.role = rolesOf k) : WellFormed r ∧ r.kind = k := by
  cases l with
  | nil => cases h
  | cons a rest =>
    obtain rfl := Option.some.inj h
    exact ⟨⟨roles⟩, rfl⟩

/-- The request is one of the result writer's, by the entry at the front of its queue (R141). -/
theorem resultRequest_some {s : State} {r : Request} (h : s.resultRequest = some r) :
    WellFormed r ∧ ((∃ i w, w ∈ s.results.queue.head? ∧ completes i w = true ∧ r.kind = .completion i s.nextNumber)
      ∨ ∃ i x, some (Work.round i x) = s.results.queue.head? ∧ r.kind = .roundResult i) := by
  unfold State.resultRequest at h
  split at h
  · split at h
    · cases h
    · rename_i i x _ hq
      obtain ⟨wf, hk⟩ := requestOf_wellFormed h fun _ => rfl
      exact ⟨wf, .inl ⟨i, .done i x, by rw [hq]; rfl, by simp [completes], hk⟩⟩
    · rename_i i x _ hq
      obtain ⟨wf, hk⟩ := requestOf_wellFormed h fun _ => rfl
      exact ⟨wf, .inl ⟨i, .rejected i x, by rw [hq]; rfl, by simp [completes], hk⟩⟩
    · rename_i i x _ hq
      obtain ⟨wf, hk⟩ := requestOf_wellFormed h fun _ => rfl
      exact ⟨wf, .inr ⟨i, x, by rw [hq]; rfl, hk⟩⟩
  · cases h

theorem giveBackRequest_some {s : State} {r : Request} (h : s.giveBackRequest = some r) :
    WellFormed r ∧ s.session.state = .stopping ∧ ∃ o ∈ s.director.receiveList, r.kind = .giveBack o.index := by
  unfold State.giveBackRequest at h
  split at h
  · split at h
    · cases h
    · rename_i st _ o _ hl
      obtain ⟨wf, hk⟩ := requestOf_wellFormed h fun _ => rfl
      exact ⟨wf, st, o, by simp [hl], hk⟩
  · cases h

/-- The request is one of the delivery writer's: the oldest frame with a slot, or a give-back (R132, R136). -/
theorem deliveryRequest_some {s : State} {r : Request} (h : s.deliveryRequest = some r) :
    WellFormed r ∧ ((∃ i, ∃ q ∈ s.director.queue, q.slot = some i ∧ r.kind = .filled i s.nextNumber)
      ∨ (s.session.state = .stopping ∧ ∃ o ∈ s.director.receiveList, r.kind = .giveBack o.index)) := by
  unfold State.deliveryRequest at h
  split at h
  · split at h
    · obtain ⟨wf, rest⟩ := giveBackRequest_some h
      exact ⟨wf, .inr rest⟩
    · rename_i q hq
      split at h
      · cases h
      · rename_i i hi
        obtain ⟨wf, hk⟩ := requestOf_wellFormed h fun _ => rfl
        exact ⟨wf, .inl ⟨i, q, List.mem_of_find?_eq_some hq, hi, hk⟩⟩
  · cases h

theorem headerRequest_some {s : State} {r : Request} (h : s.headerRequest = some r) :
    WellFormed r ∧ ∃ u, s.header.head? = some u ∧ r.kind = .header u := by
  unfold State.headerRequest at h
  split at h
  · cases h
  · rename_i u _ hu
    obtain ⟨wf, hk⟩ := requestOf_wellFormed h fun _ => by cases u <;> rfl
    exact ⟨wf, u, by rw [hu]; rfl, hk⟩

theorem sweeperRequest_some {s : State} {r : Request} (h : s.sweeperRequest = some r) :
    WellFormed r ∧ r.kind = .sweeper
      ∧ ∃ w, s.sweeper.sweep = some w ∧ r.first.role = stageRole w.stage ∧ r.rest = [] := by
  unfold State.sweeperRequest at h
  split at h
  · cases h
  · rename_i w hw
    obtain ⟨wf, hk⟩ := requestOf_wellFormed h fun ne => absurd rfl ne
    obtain rfl := Option.some.inj h
    exact ⟨wf, hk, w, hw, by cases w.stage <;> rfl, rfl⟩

/-- What the granted request can be, by its claimant (R177). -/
inductive Asked (s : State) (r : Request) : Prop
  | completion (i : Nat) (w : Work) (front : w ∈ s.results.queue.head?) (of : completes i w = true)
      (kind : r.kind = .completion i s.nextNumber)
  | round (i : Nat) (x : SendResult) (front : some (Work.round i x) = s.results.queue.head?)
      (kind : r.kind = .roundResult i)
  | filled (i : Nat) (q : QueuedFrame) (queued : q ∈ s.director.queue) (slot : q.slot = some i)
      (kind : r.kind = .filled i s.nextNumber)
  | givenBack (o : Offered) (stopping : s.session.state = .stopping) (listed : o ∈ s.director.receiveList)
      (kind : r.kind = .giveBack o.index)
  | header (u : HeaderUnit) (front : s.header.head? = some u) (kind : r.kind = .header u)
  | sweeper (w : Sweep) (sweep : s.sweeper.sweep = some w) (role : r.first.role = stageRole w.stage) (single : r.rest = [])
      (kind : r.kind = .sweeper)

theorem nextRequest_some {s : State} {r : Request} (h : s.nextRequest = some r) : WellFormed r ∧ Asked s r := by
  unfold State.nextRequest at h
  split at h
  · rename_i hr
    obtain rfl := Option.some.inj h
    obtain ⟨wf, ⟨i, w, hw, of, hk⟩ | ⟨i, x, hx, hk⟩⟩ := resultRequest_some hr
    · exact ⟨wf, .completion i w hw of hk⟩
    · exact ⟨wf, .round i x hx hk⟩
  · split at h
    · rename_i hr
      obtain rfl := Option.some.inj h
      obtain ⟨wf, ⟨i, q, hq, hi, hk⟩ | ⟨st, o, ho, hk⟩⟩ := deliveryRequest_some hr
      · exact ⟨wf, .filled i q hq hi hk⟩
      · exact ⟨wf, .givenBack o st ho hk⟩
    · split at h
      · rename_i hr
        obtain rfl := Option.some.inj h
        obtain ⟨wf, u, hu, hk⟩ := headerRequest_some hr
        exact ⟨wf, .header u hu hk⟩
      · obtain ⟨wf, hk, w, hw, role, single⟩ := sweeperRequest_some h
        exact ⟨wf, .sweeper w hw role single hk⟩

/-- A unit that is numbered takes the next number. -/
theorem asked_number {s : State} {r : Request} (h : Asked s r) {c : Half} (hc : numberOf r.kind = some c) :
    c = s.nextNumber := by
  cases h with
  | completion i w _ _ kind | filled i w _ _ kind => rw [kind] at hc; exact (Option.some.inj hc).symm
  | round i x _ kind => rw [kind] at hc; cases hc
  | givenBack o _ _ kind => rw [kind] at hc; cases hc
  | header u _ kind => rw [kind] at hc; cases hc
  | sweeper w _ _ _ kind => rw [kind] at hc; cases hc

/-- What a grant does to the counts (R141). -/
theorem numberUnit_counts (s : State) (k : UnitKind) : (s.numberUnit k).results.written = s.results.written
    ∧ (s.numberUnit k).results.countCopy = (numberOf k).getD s.results.countCopy := by
  cases k <;> exact ⟨rfl, rfl⟩

theorem portFree_iff {s : State} : s.portFree = true ↔ s.port.unit = none ∧ s.port.abandoned = none
    ∧ s.session.state ≠ .standby ∧ s.session.state ≠ .faulted := by
  unfold State.portFree
  simp only [Bool.and_eq_true, Option.isNone_iff_eq_none, bne_iff_ne]
  tauto

theorem grant_keepsCounts {s : State} {r : Request} (free : s.portFree = true) (next : s.nextRequest = some r)
    (k : CountsAgree s) : CountsAgree (s.grant r) := by
  obtain ⟨hu, _, _, live⟩ := portFree_iff.1 free
  obtain ⟨wf, asked⟩ := nextRequest_some next
  obtain ⟨_, k⟩ := k
  rw [hu] at k
  have eq : s.results.written = s.results.countCopy := k.resolve_right fun h => live h.1
  obtain ⟨written, countCopy⟩ := numberUnit_counts s r.kind
  have state : (s.grant r).session.state = s.session.state := by
    obtain ⟨c, v, h⟩ := grant_eq s r
    rw [h]
  refine ⟨fun h => absurd (state ▸ h) live, ?_⟩
  show match numberOf r.kind with
    | none => (s.numberUnit r.kind).results.written = (s.numberUnit r.kind).results.countCopy
    | some c => c = (s.numberUnit r.kind).results.countCopy ∧ (s.numberUnit r.kind).results.written + 1 = c
        ∧ (r.first :: r.rest).map Access.role <:+ rolesOf r.kind
  rw [written, countCopy]
  cases hn : numberOf r.kind with
  | none => exact eq
  | some c =>
    refine ⟨rfl, ?_, ?_⟩
    · rw [asked_number asked hn, eq]
      rfl
    · rw [wf.roles (by intro hk; rw [hk] at hn; cases hn)]

/-! ### The completion of an access -/

/-- The counts at the completion of an access that writes no count: they stay, or START clears both (R139, R141). -/
theorem afterAccess_counts (s : State) (k : UnitKind) (r : Role) (bs : List Byte) (h : r = .countWrite → numberOf k = none) :
    ((s.afterAccess k r bs).results.written = s.results.written
      ∧ (s.afterAccess k r bs).results.countCopy = s.results.countCopy)
    ∨ (r = .startReads ∧ (s.afterAccess k r bs).results.written = 0 ∧ (s.afterAccess k r bs).results.countCopy = 0) := by
  have calm : ∀ {v : State}, Calm s v → (v.results.written = s.results.written ∧ v.results.countCopy = s.results.countCopy)
    ∨ (r = .startReads ∧ v.results.written = 0 ∧ v.results.countCopy = 0) := fun c => .inl ⟨c.written, c.countCopy⟩
  cases r with
  | part => exact .inl ⟨rfl, rfl⟩
  | word0 => exact calm (sweeps_word0Read s bs).calm
  | envelope => exact calm (sweeps_envelopeRead s bs).calm
  | word1 => exact calm (sweeps_word1Read s bs).calm
  | claim => exact calm (sweeps_claimWritten s).calm
  | stateWrite =>
    left
    cases k with
    | filled i c =>
      show (s.frameWritten i).results.written = _ ∧ (s.frameWritten i).results.countCopy = _
      unfold State.frameWritten
      split <;> exact ⟨rfl, rfl⟩
    | completion _ _ | roundResult _ | giveBack _ | header _ | sweeper => exact ⟨rfl, rfl⟩
  | countWrite =>
    left
    cases k with
    | completion _ _ | filled _ _ => exact absurd (h rfl) nofun
    | roundResult _ | giveBack _ | header _ | sweeper => exact ⟨rfl, rfl⟩
  | roundResult => exact .inl ⟨rfl, rfl⟩
  | giveBack => left; cases k <;> exact ⟨rfl, rfl⟩
  | startReads =>
    show (_ ∧ _) ∨ (_ ∧ (s.headerDone.startRead bs).results.written = 0 ∧ (s.headerDone.startRead bs).results.countCopy = 0)
    unfold State.afterAccess State.startRead
    dsimp only
    split
    · exact .inl ⟨rfl, rfl⟩
    · exact .inr ⟨rfl, rfl, rfl⟩
  | startUnit => exact .inl ⟨rfl, rfl⟩
  | reloadReads =>
    left
    show (s.headerDone.reloadRead bs).results.written = _ ∧ (s.headerDone.reloadRead bs).results.countCopy = _
    rw [reloadRead_eq]
    split
    · exact ⟨rfl, rfl⟩
    · have handed := lineEvent_handSettings s.headerDone (settings (reloadHeader bs))
      have off := lineEvent_offsAtOnce ((s.headerDone.handSettings (settings (reloadHeader bs))).finishCommand .reload)
      exact ⟨off.written.trans handed.written, off.countCopy.trans handed.countCopy⟩
  | sweepEnd =>
    have c := completeCheck_calm s.headerDone
    exact .inl ⟨c.written, c.countCopy⟩
  | finalUnit =>
    have c := completeCheck_calm s.headerDone
    exact .inl ⟨c.written, c.countCopy⟩

/-- The count write of a completion leaves the count it writes, and the number last given (R141, R145). -/
theorem countWrite_counts (s : State) {k : UnitKind} {c : Half} (h : numberOf k = some c) (bs : List Byte) :
    (s.afterAccess k .countWrite bs).results.written = c
      ∧ (s.afterAccess k .countWrite bs).results.countCopy = s.results.countCopy := by
  have count : ∀ r : State, (r.countWritten c).results.written = c
      ∧ (r.countWritten c).results.countCopy = r.results.countCopy := by
    intro r
    unfold State.countWritten
    dsimp only
    split <;> exact ⟨rfl, rfl⟩
  cases k with
  | completion i d =>
    obtain rfl := Option.some.inj h
    exact count s.dequeue
  | filled i d =>
    obtain rfl := Option.some.inj h
    exact count s
  | roundResult _ | giveBack _ | header _ | sweeper => cases h

/-- The session state and WAKE at the completion of an access: START ends in RUNNING, STOP in UNSET. -/
theorem afterAccess_session (s : State) (k : UnitKind) (r : Role) (bs : List Byte) :
    ((s.afterAccess k r bs).session.state = s.session.state ∨ (s.afterAccess k r bs).session.state = .running
        ∨ (s.afterAccess k r bs).session.state = .unset)
      ∧ ((s.afterAccess k r bs).standby.wake = true → s.standby.wake = true ∨ s.session.state = .standby) := by
  have calm : ∀ {v : State}, Calm s v → (v.session.state = s.session.state ∨ v.session.state = .running
      ∨ v.session.state = .unset) ∧ (v.standby.wake = true → s.standby.wake = true ∨ s.session.state = .standby) :=
    fun c => ⟨.inl c.state, c.wake⟩
  cases r with
  | part => exact ⟨.inl rfl, .inl⟩
  | word0 => exact calm (sweeps_word0Read s bs).calm
  | envelope => exact calm (sweeps_envelopeRead s bs).calm
  | word1 => exact calm (sweeps_word1Read s bs).calm
  | claim => exact calm (sweeps_claimWritten s).calm
  | stateWrite =>
    cases k with
    | filled i c =>
      show ((s.frameWritten i).session.state = _ ∨ (s.frameWritten i).session.state = _
        ∨ (s.frameWritten i).session.state = _) ∧ ((s.frameWritten i).standby.wake = true → _)
      unfold State.frameWritten
      split <;> exact ⟨.inl rfl, .inl⟩
    | completion _ _ | roundResult _ | giveBack _ | header _ | sweeper => exact ⟨.inl rfl, .inl⟩
  | countWrite =>
    unfold State.afterAccess State.countUnitDone State.countWritten
    cases k with
    | completion _ _ | filled _ _ => dsimp only; split <;> exact ⟨.inl rfl, .inl⟩
    | roundResult _ | giveBack _ | header _ | sweeper => exact ⟨.inl rfl, .inl⟩
  | roundResult => exact ⟨.inl rfl, .inl⟩
  | giveBack => cases k <;> exact ⟨.inl rfl, .inl⟩
  | startReads =>
    unfold State.afterAccess State.startRead
    dsimp only
    split <;> exact ⟨.inl rfl, .inl⟩
  | startUnit => exact ⟨.inr (.inl rfl), .inl⟩
  | reloadReads =>
    show ((s.headerDone.reloadRead bs).session.state = _ ∨ (s.headerDone.reloadRead bs).session.state = _
        ∨ (s.headerDone.reloadRead bs).session.state = _) ∧ ((s.headerDone.reloadRead bs).standby.wake = true → _)
    rw [reloadRead_eq]
    split
    · exact ⟨.inl rfl, .inl⟩
    · have handed := (lineEvent_handSettings s.headerDone (settings (reloadHeader bs))).calm
      have off := (lineEvent_offsAtOnce
        ((s.headerDone.handSettings (settings (reloadHeader bs))).finishCommand .reload)).calm
      have state : ((s.headerDone.handSettings (settings (reloadHeader bs))).finishCommand .reload).session.state
          = s.session.state := handed.state
      exact ⟨.inl (off.state.trans state), fun w => (off.wake w).elim handed.wake fun st => .inr (state ▸ st)⟩
  | sweepEnd => exact calm (calm_trans (s := s.headerDone) ⟨rfl, rfl, rfl, rfl, .inl⟩ (completeCheck_calm _))
  | finalUnit => exact ⟨.inr (.inr rfl), (completeCheck_calm s.headerDone).wake⟩

/-- The access on the bus of a numbered unit: a part or the state write with more to come, or the count write, the last
(R176). -/
theorem numbered_access {u : PortUnit} {c : Half} (hn : numberOf u.kind = some c) (h : rolesLeft u <:+ rolesOf u.kind) :
    ((u.access.role = .part ∨ u.access.role = .stateWrite) ∧ u.rest ≠ []) ∨ (u.access.role = .countWrite ∧ u.rest = []) := by
  have roles : rolesOf u.kind = [.part, .stateWrite, .part, .countWrite]
      ∨ rolesOf u.kind = [.part, .part, .stateWrite, .part, .countWrite] := by
    cases hk : u.kind with
    | completion i d => exact .inl rfl
    | filled i d => exact .inr rfl
    | roundResult _ | giveBack _ | header _ | sweeper => rw [hk] at hn; cases hn
  unfold rolesLeft at h
  cases hr : u.rest with
  | nil =>
    rw [hr] at h
    rcases roles with e | e <;> rw [e] at h <;> simp [List.suffix_cons_iff] at h <;> simp [h]
  | cons a rest =>
    rw [hr] at h
    rcases roles with e | e <;> rw [e] at h <;> simp [List.suffix_cons_iff] at h <;> grind

/-- What a unit still has to complete is the last part of what it had. -/
theorem rolesLeft_next {u v : PortUnit} {bs : List Byte} (h : u.next bs = some v) :
    v.kind = u.kind ∧ rolesLeft u = u.access.role :: rolesLeft v := by
  unfold PortUnit.next at h
  split at h
  · cases h
  · rename_i a rest hr
    obtain rfl := Option.some.inj h
    exact ⟨rfl, by simp [rolesLeft, hr]⟩

theorem next_none {u : PortUnit} {bs : List Byte} (h : u.rest = []) : u.next bs = none := by
  unfold PortUnit.next
  rw [h]

theorem completeAccess_unit (s : State) (u : PortUnit) :
    (s.completeAccess u).port.unit = u.next (u.data ++ s.readData u.access) := by
  rw [(completeAccess_memory s u).2]

theorem accessLanded_results (s : State) (u : PortUnit) : (accessLanded s u).results = s.results := by
  rw [accessLanded_eq]

theorem accessLanded_session (s : State) (u : PortUnit) : (accessLanded s u).session = s.session := by
  rw [accessLanded_eq]

theorem accessLanded_standby (s : State) (u : PortUnit) : (accessLanded s u).standby = s.standby := by
  rw [accessLanded_eq]

theorem completeAccess_live {s : State} {u : PortUnit} (live : s.session.state ≠ .faulted) :
    (s.completeAccess u).session.state ≠ .faulted := by
  rw [completeAccess_eq]
  obtain ⟨hs, _⟩ := afterAccess_session (accessLanded s u) u.kind u.access.role (u.data ++ s.readData u.access)
  rw [accessLanded_session] at hs
  rcases hs with hs | hs | hs
  · rwa [hs]
  · simp [hs]
  · simp [hs]

theorem completeAccess_keepsCounts {s : State} {u : PortUnit} (inHand : s.port.unit = some u) (k : CountsAgree s) :
    CountsAgree (s.completeAccess u) := by
  obtain ⟨quiet, k⟩ := k
  have live : s.session.state ≠ .faulted := fun h => by rw [quiet h] at inHand; cases inHand
  rw [inHand] at k
  dsimp only at k
  have counts := afterAccess_counts (accessLanded s u) u.kind u.access.role (u.data ++ s.readData u.access)
  rw [← completeAccess_eq, accessLanded_results] at counts
  refine ⟨fun h => absurd h (completeAccess_live live), ?_⟩
  rw [completeAccess_unit]
  cases hn : numberOf u.kind with
  | none =>
    rw [hn] at k
    have eq : (s.completeAccess u).results.written = (s.completeAccess u).results.countCopy := by
      rcases counts fun _ => hn with ⟨w, c⟩ | ⟨_, w, c⟩
      · rw [w, c]; exact k
      · rw [w, c]
    cases hx : u.next (u.data ++ s.readData u.access) with
    | none => exact .inl eq
    | some v =>
      dsimp only
      rw [(rolesLeft_next hx).1, hn]
      exact eq
  | some c =>
    rw [hn] at k
    obtain ⟨hc, lag, roles⟩ := k
    rcases numbered_access hn roles with ⟨role, more⟩ | ⟨role, last⟩
    · have notCount : u.access.role ≠ .countWrite := by rcases role with r | r <;> simp [r]
      have notStart : u.access.role ≠ .startReads := by rcases role with r | r <;> simp [r]
      obtain ⟨w, n⟩ := (counts fun h => absurd h notCount).resolve_right fun h => notStart h.1
      cases hx : u.next (u.data ++ s.readData u.access) with
      | none =>
        unfold PortUnit.next at hx
        split at hx
        · exact absurd ‹_› more
        · cases hx
      | some v =>
        obtain ⟨kind, left⟩ := rolesLeft_next hx
        dsimp only
        rw [kind, hn, w, n]
        rw [left] at roles
        exact ⟨hc, lag, (List.suffix_cons _ _).trans roles⟩
    · have count := countWrite_counts (accessLanded s u) hn (u.data ++ s.readData u.access)
      rw [← role, ← completeAccess_eq, accessLanded_results] at count
      rw [next_none last]
      exact .inl (count.1.trans (hc.trans count.2.symm))

theorem completeAccess_keepsWake {s : State} {u : PortUnit} (inHand : s.port.unit = some u) (k : WakeOnlyInStandby s) :
    WakeOnlyInStandby (s.completeAccess u) := by
  have awake : s.session.state ≠ .standby := fun h => by rw [k.2 h] at inHand; cases inHand
  obtain ⟨state, wake⟩ := afterAccess_session (accessLanded s u) u.kind u.access.role (u.data ++ s.readData u.access)
  rw [← completeAccess_eq, accessLanded_session] at state
  rw [← completeAccess_eq, accessLanded_session, accessLanded_standby] at wake
  refine wakeOnlyInStandby_of_off ?_ ?_
  · cases h : (s.completeAccess u).standby.wake with
    | false => rfl
    | true => exact absurd ((wake h).elim k.1 id) awake
  · rcases state with st | st | st
    · rwa [st]
    · simp [st]
    · simp [st]

/-! ### Every move -/

theorem calm_synced (s : State) :
    Calm s ((((s.openSyncWindow.selectInWindow 0).selectInWindow 1).selectInWindow 2).selectInWindow 3) :=
  calm_trans (s := s.openSyncWindow) ⟨rfl, rfl, rfl, rfl, .inl⟩ (sends_selectInWindows _).lineEvent.calm

/-- What a move can do to WAKE and the counts. -/
inductive MoveKind (s v : State) : Prop
  | calm (h : Calm s v)
  | movesOn (h : MovesOn s v)
  | cleared (state : v.session.state = .unset) (wake : v.standby.wake = false) (unit : v.port.unit = none)
      (written : v.results.written = 0) (countCopy : v.results.countCopy = 0)
  | granted (r : Request) (free : s.portFree = true) (next : s.nextRequest = some r) (eq : v = s.grant r)
  | completed (u : PortUnit) (inHand : s.port.unit = some u) (eq : v = s.completeAccess u)
  | faulted (u : PortUnit) (k : FaultKind) (inHand : s.port.unit = some u) (eq : v = s.enterFaulted u k)

theorem move_kind {s v : State} (m : Move s v) : MoveKind s v := by
  have same : ∀ {v : State}, v.session.state = s.session.state → v.port.unit = s.port.unit → v.results = s.results →
      v.standby = s.standby → MoveKind s v := fun st u r w =>
    .calm ⟨st, u, by rw [r], by rw [r], fun h => .inl (w ▸ h)⟩
  cases m with
  | stay => exact same rfl rfl rfl rfl
  | refused => exact same rfl rfl rfl rfl
  | startAccepted => exact same rfl rfl rfl rfl
  | pauseAccepted _ st =>
    exact .movesOn (movesOn_of (by simp [st]) (by simp [st]) nofun nofun rfl rfl rfl rfl)
  | resumedFromPaused _ st =>
    exact .movesOn (movesOn_of (by simp [st]) (by simp [st]) nofun nofun rfl rfl rfl rfl)
  | resumedFromStandby _ st => exact .movesOn (movesOn_resumeFromStandby (by simp [st]))
  | standbyAccepted _ st =>
    exact .movesOn (movesOn_of (by rcases st with st | st <;> simp [st]) (by rcases st with st | st <;> simp [st])
      nofun nofun rfl rfl rfl rfl)
  | stopAccepted _ st => exact .movesOn (movesOn_acceptStop (by rcases st with st | st | st <;> simp [st]))
  | reloadAccepted => exact same rfl rfl rfl rfl
  | reset => exact .cleared rfl rfl (by simp) rfl rfl
  | poweredOn => exact .cleared rfl rfl rfl rfl rfl
  | sweepAsked => exact .calm (sweeps_askSweep s).calm
  | registersWritten => exact same rfl rfl rfl rfl
  | synced => exact .calm (calm_synced s)
  | windowClosed => exact same rfl rfl rfl rfl
  | granted r free next => exact .granted r free next rfl
  | completed u inHand => exact .completed u inHand rfl
  | abandonedEnded =>
    obtain ⟨n, k, p, h⟩ := endAbandoned_eq s
    rw [h]
    exact same rfl rfl rfl rfl
  | faulted u k inHand => exact .faulted u k inHand rfl
  | settlingEnded guard => exact .movesOn (movesOn_enterStandby guard)
  | resumeEnded => exact .calm (calm_trans (sweeps_assignSlots _).calm ⟨rfl, rfl, rfl, rfl, .inl⟩)
  | stoppingEnded => exact same rfl rfl rfl rfl
  | holdExpired t => exact .calm (lineEvent_holdExpires s t).calm
  | edgeTaken t l => exact .calm (lineEvent_takeEdge s t l).calm
  | replySettled t o => exact .calm (lineEvent_settleReply s t o).calm
  | replyClosed => exact same rfl rfl rfl rfl
  | shapeTimed t => exact .calm (lineEvent_shapeInSending s t).calm
  | elementEnded => exact same rfl rfl rfl rfl
  | leadMarked => exact same rfl rfl rfl rfl
  | malformedTimed t => exact .calm (lineEvent_abandonFrame s t).calm
  | answerBegun => exact same rfl rfl rfl rfl
  | answerEnded => exact same rfl rfl rfl rfl
  | foreignEnded t => exact .calm (lineEvent_foreignFrameEnds s t).calm
  | stuck t => exact .calm (lineEvent_stuckEvent s t).calm
  | recovered => exact same rfl rfl rfl rfl
  | timingTaken => exact same rfl rfl rfl rfl
  | trunkOff t => exact .calm (lineEvent_trunkGoesOff s t).calm
  | restEnded i t => exact .calm (sendsOn_endRest s t i).calm
  | expired i t e => exact .calm (sendsOn_expireEntry s t e).calm
  | dueTime i r => exact .calm (sendsOn_dueTimeOf s r).calm
  | roundJoined t => exact .calm (sendsOn_joinRound s t).calm

theorem move_keepsWake {s v : State} (m : Move s v) (k : WakeOnlyInStandby s) : WakeOnlyInStandby v := by
  cases move_kind m with
  | calm h => exact h.keepsWake k
  | movesOn h => exact h.wake k
  | cleared state wake => exact wakeOnlyInStandby_of_off wake (by simp [state])
  | granted r free _ eq =>
    obtain ⟨_, _, awake, _⟩ := portFree_iff.1 free
    obtain ⟨c, w, h⟩ := grant_eq s r
    rw [eq, h]
    have off := wake_off k awake
    exact wakeOnlyInStandby_of_off off awake
  | completed u inHand eq => exact eq ▸ completeAccess_keepsWake inHand k
  | faulted u j inHand eq =>
    have awake : s.session.state ≠ .standby := fun h => by rw [k.2 h] at inHand; cases inHand
    have off := wake_off k awake
    rw [eq, enterFaulted_eq]
    exact wakeOnlyInStandby_of_off off nofun

theorem enterFaulted_keepsCounts {s : State} {u : PortUnit} (j : FaultKind) (inHand : s.port.unit = some u)
    (k : CountsAgree s) : CountsAgree (s.enterFaulted u j) := by
  obtain ⟨_, k⟩ := k
  rw [inHand] at k
  rw [enterFaulted_eq]
  refine ⟨fun _ => rfl, ?_⟩
  show s.results.written = s.results.countCopy ∨ (_ ∧ s.results.written + 1 = s.results.countCopy)
  dsimp only at k
  split at k
  · exact .inl k
  · exact .inr ⟨rfl, k.2.1.trans k.1⟩

theorem move_keepsCounts {s v : State} (m : Move s v) (k : CountsAgree s) : CountsAgree v := by
  cases move_kind m with
  | calm h => exact h.keepsCounts k
  | movesOn h => exact h.keepsCounts k
  | cleared state _ unit written countCopy =>
    exact countsAgree_of_eq (by simp [state]) (fun u h => by rw [unit] at h; cases h) (written.trans countCopy.symm)
  | granted r free next eq => exact eq ▸ grant_keepsCounts free next k
  | completed u inHand eq => exact eq ▸ completeAccess_keepsCounts inHand k
  | faulted u j inHand eq => exact eq ▸ enterFaulted_keepsCounts j inHand k

/-! ### One microsecond, and the obligation -/

theorem tick_keepsWake (s : State) (k : WakeOnlyInStandby s) : WakeOnlyInStandby s.tick := by
  obtain ⟨d, m, n, o, h⟩ := tick_eq s
  rw [h]
  exact ⟨k.1, fun st => by simp [k.2 st]⟩

theorem tick_keepsCounts (s : State) (k : CountsAgree s) : CountsAgree s.tick := by
  obtain ⟨d, m, n, o, h⟩ := tick_eq s
  rw [h]
  obtain ⟨quiet, k⟩ := k
  refine ⟨fun st => by simp [quiet st], ?_⟩
  cases hu : s.port.unit with
  | none =>
    rw [hu] at k
    exact k
  | some u =>
    rw [hu] at k
    exact k

/-- Settles O59: WAKE rises in STANDBY alone, STANDBY is entered with a free port and left with WAKE dropped; a number is
given at a grant, and the count write of its unit catches up with it. -/
theorem stepKeepsWakeInStandby : Obligations.StepKeepsWakeInStandby :=
  ⟨fun s h => step_keeps (P := WakeOnlyInStandby) (fun _ _ k m => move_keepsWake m k) (fun _ _ _ k => k)
      (fun _ _ _ k => k) (fun _ _ _ k => k) tick_keepsWake s h,
    fun s h => step_keeps (P := CountsAgree) (fun _ _ k m => move_keepsCounts m k) (fun _ _ _ k => k)
      (fun _ _ _ k => k) (fun _ _ _ k => k) tick_keepsCounts s h⟩

end Sys2Proof.Proofs

/-! SUPPORT. The register window, reset and the decision on a command (chapters 8 and 9): when a command is busy and where it
is accepted, what power-on reset sets, when the session sweeps, and how STATUS lays out its fields. -/

namespace Sys2Proof.Proofs

open Sys2Proof.Machine Sys2Proof.Laws Sys2Proof.Safety

/-! ### The state after power-on reset -/

/-- Nothing holds an index in the state after power-on reset. -/
theorem reset_holders (i : Nat) : holders State.reset false i = 0 := rfl

theorem reset_heldMapKept : HeldMapKept State.reset := by
  refine ⟨⟨false, fun _ => rfl, nofun, fun i => ?_⟩, fun t => ?_, ?_, trivial, ?_, ?_⟩
  · rw [reset_holders]
    show 0 = ((0#1024).getLsbD i).toNat
    simp
  · have empty : State.reset.list t = [] := get_all _ t
    rw [empty]
    exact ⟨List.nodup_nil, fun e he => absurd he List.not_mem_nil⟩
  · exact ⟨by decide, by decide, by decide, fun w hw => absurd hw (Option.some_ne_none w).symm⟩
  · exact fun _ => ⟨rfl, rfl⟩
  · exact fun h => absurd rfl h

theorem reset_withinPlaces : WithinPlaces State.reset := by
  refine ⟨fun t => ?_, by decide, by decide, by decide, trivial⟩
  have empty : State.reset.list t = [] := get_all _ t
  have unreserved : State.reset.sweeper.reservation ≠ some (Place.list t) := (Option.some_ne_none _).symm
  unfold State.placesTaken
  rw [empty, if_neg unreserved]
  decide

theorem reset_listsInClassOrder : ListsInClassOrder State.reset := by
  intro t
  have empty : State.reset.list t = [] := get_all _ t
  rw [empty]
  exact List.Pairwise.nil

theorem reset_blocks : BlocksAtReset State.reset := by
  refine ⟨sessionAtReset_of_eq (c := Session.reset) rfl rfl, fun t => ?_, sweeperAtReset_of_eq rfl,
    schedulerAtReset_of_eq rfl, directorAtReset_of_eq rfl, resultsAtReset_of_eq rfl rfl, rfl⟩
  have engine : State.reset.engine t = Engine.reset.afterReset := get_all _ t
  rw [engine]
  exact engineAtReset_afterReset _

/-- Settles O3: the state after power-on reset is written out, so its registers evaluate; nothing is pending, queued or
held in it. -/
theorem resetState : Obligations.ResetState :=
  ⟨reset_blocks, rfl, rfl, by decide, by decide, by decide, by decide, by decide, by decide, by decide, by decide,
    by decide, rfl, ⟨List.Pairwise.nil, nofun⟩, reset_withinPlaces, List.Pairwise.nil, ⟨nofun, nofun⟩,
    reset_listsInClassOrder, reset_heldMapKept, ⟨nofun, .inl rfl⟩⟩

/-! ### Power-on reset -/

/-- A read that fails or is abandoned changes no memory. -/
theorem landPerhaps_read {a : Access} {k : Nat} (h : a.op = .read k) (s : State) : s.landPerhaps a = s := by
  unfold State.landPerhaps
  rw [h]

/-- What is dropped from the bus leaves memory alone when it is no write. -/
theorem dropAccess_memory {s : State} (unit : ∀ u : PortUnit, s.port.unit = some u → ∃ k, u.access.op = .read k)
    (abandoned : ∀ a : Abandoned, s.port.abandoned = some a → ∃ k, a.access.op = .read k) :
    s.dropAccess.memory = s.memory := by
  unfold State.dropAccess
  split
  · rename_i u hu
    obtain ⟨k, hk⟩ := unit u hu
    rw [landPerhaps_read hk]
    rfl
  · split
    · rename_i a ha
      obtain ⟨k, hk⟩ := abandoned a ha
      rw [landPerhaps_read hk]
      rfl
    · rfl

theorem dropAccess_queues (s : State) : s.dropAccess.pending = s.pending ∧ s.dropAccess.outside = s.outside := by
  have land : ∀ a, (s.landPerhaps a).pending = s.pending ∧ (s.landPerhaps a).outside = s.outside := by
    intro a
    rw [landPerhaps_eq]
    exact ⟨rfl, rfl⟩
  unfold State.dropAccess
  split
  · exact land _
  · split
    · exact land _
    · exact ⟨rfl, rfl⟩

@[simp] theorem powerOn_engine (s : State) (t : Trunk) : s.powerOn.engine t = (s.dropAccess.engine t).afterReset :=
  get_of _ t

theorem blocksAtReset_powerOn (s : State) : BlocksAtReset s.powerOn := by
  refine ⟨sessionAtReset_of_eq (c := Session.reset) rfl rfl, fun t => ?_, sweeperAtReset_of_eq rfl,
    schedulerAtReset_of_eq rfl, directorAtReset_of_eq rfl, resultsAtReset_of_eq rfl rfl, rfl⟩
  rw [powerOn_engine]
  exact engineAtReset_afterReset _

/-- Settles O4: power-on reset drops the access on the bus and sets every block and every register. -/
theorem powerOnReset : Obligations.PowerOnReset := by
  intro s
  obtain ⟨pending, outside⟩ := dropAccess_queues s
  exact ⟨s.powerOn, exec_powerOnReset_next s, blocksAtReset_powerOn s, rfl, rfl, rfl, rfl,
    irq_eq_false_of_no_cause rfl, dropAccess_memory, pending, outside⟩

/-! ### The decision on a command (R155) -/

theorem commandBusy_iff (s : State) : s.commandBusy = true ↔ Busy s := by
  simp [State.commandBusy, Busy, or_assoc]

theorem allowedIn_iff (c : Command) (x : SessionState) : c.allowedIn x = true ↔ x ∈ acceptingStates c := by
  cases c <;> cases x <;> decide

theorem refusal_of_busy {s : State} (h : Busy s) (c : Command) : s.refusal c = some .busy := by
  unfold State.refusal
  rw [if_pos ((commandBusy_iff s).2 h)]

theorem commandBusy_of_not {s : State} (h : ¬ Busy s) : s.commandBusy = false := by
  rw [← commandBusy_iff] at h
  simpa using h

theorem refusal_of_wrongState {s : State} {c : Command} (idle : ¬ Busy s) (h : s.session.state ∉ acceptingStates c) :
    s.refusal c = some .wrongState := by
  rw [← allowedIn_iff] at h
  unfold State.refusal
  simp [commandBusy_of_not idle, h]

theorem refusal_of_misaligned {s : State} (idle : ¬ Busy s) (st : s.session.state = .unset)
    (h : s.regs.areaBase.toNat % 256 ≠ 0) : s.refusal .start = some .baseMisaligned := by
  unfold State.refusal
  simp [commandBusy_of_not idle, st, Command.allowedIn, State.baseAligned, h]

/-- A command is accepted in its states outside BUSY; START also asks for an aligned base. -/
theorem refusal_of_accepted {s : State} {c : Command} (idle : ¬ Busy s) (st : s.session.state ∈ acceptingStates c)
    (aligned : c = .start → s.regs.areaBase.toNat % 256 = 0) : s.refusal c = none := by
  have allowed := (allowedIn_iff c _).2 st
  unfold State.refusal
  rw [if_neg (by simp [commandBusy_of_not idle]), if_neg (by simp [allowed]), if_neg]
  rintro h
  obtain ⟨hc, hb⟩ := Bool.and_eq_true_iff.1 h
  have := aligned (by simpa using hc)
  simp [State.baseAligned, this] at hb

theorem refuse_eq (s : State) (code : BitVec 4) (reason : RefusalReason) :
    s.refuse code reason = { s with regs := refusedRegs s code reason } := rfl

theorem decideCommand_refused {s : State} {c : Command} {r : RefusalReason} (h : s.refusal c = some r)
    (f : State → State) : s.decideCommand c f = { s with regs := refusedRegs s c.code r } := by
  unfold State.decideCommand
  rw [h]
  rfl

theorem decideCommand_accepted {s : State} {c : Command} (h : s.refusal c = none) (f : State → State) :
    s.decideCommand c f = f s := by
  unfold State.decideCommand
  rw [h]

/-- The row of a command decides it. -/
theorem exec_rowOf (c : Command) (s : State) : exec (rowOf c) s = .next (s.actOn c) := by
  cases c <;> rfl

theorem actOn_refused {s : State} {c : Command} {r : RefusalReason} (ne : c ≠ .reset) (h : s.refusal c = some r) :
    s.actOn c = { s with regs := refusedRegs s c.code r } := by
  cases c with
  | reset => exact absurd rfl ne
  | start | pause | resume | standby | stop | reload => exact decideCommand_refused h _

theorem commandOfCode_none {code : BitVec 4} (h : code.toNat = 0 ∨ 8 ≤ code.toNat) : commandOfCode code = none := by
  unfold commandOfCode
  split <;> first | rfl | omega

/-- Settles O6: the reason is read off the order of the tests, and a refusal touches the read-back and a cause alone. -/
theorem commandsRefused : Obligations.CommandsRefused := by
  refine ⟨fun s code h => ?_, fun s c ne => ⟨fun h => ?_, fun idle h => ?_, fun idle st hc h => ?_⟩⟩
  · show Host.Outcome.next (s.writeCommand code) = _
    unfold State.writeCommand
    rw [commandOfCode_none h]
    rfl
  · rw [exec_rowOf, actOn_refused ne (refusal_of_busy h c)]
  · rw [exec_rowOf, actOn_refused ne (refusal_of_wrongState idle h)]
  · subst hc
    rw [exec_rowOf, actOn_refused ne (refusal_of_misaligned idle st h)]

/-- An accepted command acts. -/
theorem exec_accepted {s : State} {c : Command} (idle : ¬ Busy s) (st : s.session.state ∈ acceptingStates c)
    (aligned : c = .start → s.regs.areaBase.toNat % 256 = 0) (f : State → State)
    (arm : s.actOn c = s.decideCommand c f) : exec (rowOf c) s = .next (f s) := by
  rw [exec_rowOf, arm, decideCommand_accepted (refusal_of_accepted idle st aligned)]

/-- Settles O7: no refusal applies, and each command's acceptance is written out. -/
theorem commandsAccepted : Obligations.CommandsAccepted := by
  intro s idle
  refine ⟨fun st aligned => ?_, fun st => ?_, fun st => ?_, fun st => ⟨?_, ?_⟩⟩
  · exact exec_accepted (c := .start) idle (by simp [st, acceptingStates]) (fun _ => aligned) _ rfl
  · exact exec_accepted (c := .pause) idle (by simp [st, acceptingStates]) nofun _ rfl
  · have resume : s.acceptResume = s.resumeFromPaused := by
      unfold State.acceptResume
      rw [if_neg (by simp [st])]
    rw [show Instr.resume = rowOf .resume from rfl,
      exec_accepted (c := .resume) idle (by simp [st, acceptingStates]) nofun _ rfl, resume]
    rfl
  · exact exec_accepted (c := .standby) idle (by simpa [acceptingStates] using st) nofun _ rfl
  · exact exec_accepted (c := .reload) idle (by simpa [acceptingStates] using st) nofun _ rfl

/-! ### When a sweep is asked for (R66, R67) -/

theorem sweeping_iff (s : State) : s.sweeping = true ↔
    (s.session.state = .running ∨ s.session.state = .paused) ∧ s.session.resumeOwed = none := by
  simp [State.sweeping]

theorem askSweep_of_none {s : State} (h : s.sweeper.sweep = none) :
    s.askSweep = { s with sweeper := startedSweeper s.sweeper } := by
  unfold State.askSweep
  rw [h]
  rfl

theorem askSweep_of_some {s : State} (h : s.sweeper.sweep ≠ none) :
    s.askSweep = { s with sweeper := { s.sweeper with again := true } } := by
  unfold State.askSweep
  rw [if_pos (Option.isSome_iff_ne_none.2 h)]
  rfl

theorem exec_sweep (s : State) (v : Word) : exec (.sweep v) s = .next (if s.sweeping then s.askSweep else s) := rfl

theorem exec_sweepTimerExpiry (s : State) :
    exec .sweepTimerExpiry s = .next (if s.timerExpired then s.askSweep else s) := rfl

theorem timerExpired_iff (s : State) : s.timerExpired = true ↔
    s.sweeping = true ∧ s.sweeper.timerRuns = true ∧ s.sweeper.target ≤ s.sweeper.timer := by
  simp [State.timerExpired, and_assoc]

/-- Settles O10: a request starts a sweep or sets the again request, by whether one is in progress; the timer of a sweep
that has just started stands at 0. -/
theorem sweepStarts : Obligations.SweepStarts := by
  intro s v
  refine ⟨fun st owed => ?_, fun h => ?_, rfl⟩
  · have sweeping : s.sweeping = true := (sweeping_iff s).2 ⟨st, owed⟩
    refine ⟨fun h => ?_, fun h => ?_, fun _ period => ?_, ?_, fun runs due => ?_⟩
    · rw [exec_sweep, if_pos sweeping, askSweep_of_none h]
    · rw [exec_sweep, if_pos sweeping, askSweep_of_some h]
    · rw [exec_sweepTimerExpiry, if_neg]
      rw [timerExpired_iff]
      rintro ⟨_, _, h⟩
      exact absurd (show s.sweeper.period ≤ 0 from h) (by omega)
    · rw [exec_sweep, if_pos (show ({ s with sweeper := startedSweeper s.sweeper } : State).sweeping = true from sweeping),
        askSweep_of_some (by simp [startedSweeper])]
    · have expired := (timerExpired_iff s).2 ⟨sweeping, runs, due⟩
      rw [exec_sweepTimerExpiry, if_pos expired]
      exact ⟨fun h => by rw [askSweep_of_none h], fun h => by rw [askSweep_of_some h]⟩
  · rw [exec_sweep, if_neg]
    rw [sweeping_iff]
    rintro ⟨st, owed⟩
    rcases h with ⟨h, k⟩ | h
    · exact st.elim h k
    · exact h owed

/-! ### The register window (R151) -/

theorem commandOfCode_code (c : Command) : commandOfCode c.code = some c := by
  cases c <;> decide

/-- Settles O12: each offset's arm is the row of its register; the cleared bits of INT_CAUSE are those written with 1. -/
theorem registerWrites : Obligations.RegisterWrites := by
  intro s v
  refine ⟨rfl, rfl, fun k hk => ?_, rfl, rfl, ?_, rfl, rfl, rfl, fun c hc => ?_, fun _ => rfl⟩
  · simp [hk]
  · rintro o (rfl | rfl | rfl) <;> rfl
  · rw [exec_rowOf]
    show Host.Outcome.next (s.writeCommand (v.setWidth 4)) = _
    unfold State.writeCommand
    rw [hc, commandOfCode_code]

/-! ### STATUS and the COMMAND read-back (R153; 09 section 9.1) -/

theorem sessionCode_toNat (x : SessionState) : (sessionCode x).toNat = x.code := by
  cases x <;> rfl

theorem sessionState_code_le (x : SessionState) : x.code ≤ 6 := by
  cases x <;> decide

theorem trunkCode_toNat (e : Engine) : (trunkCode e).toNat = e.statusCode := by
  unfold trunkCode Engine.statusCode
  cases e.state with
  | off => rfl
  | stuck => rfl
  | idle | holding | sending p | replyWait | receiving | answering => cases e.mode <;> rfl

theorem statusCode_le (e : Engine) : e.statusCode ≤ 3 := by
  rw [← trunkCode_toNat]
  have := (trunkCode e).isLt
  omega

theorem faultCode_toNat (k : FaultKind) : (faultCode k).toNat = k.code := by
  cases k <;> rfl

theorem faultKind_code_le (k : FaultKind) : k.code ≤ 3 := by
  cases k <;> decide

theorem commandResultCode_toNat (r : CommandResult) : (commandResultCode r).toNat = r.code := by
  cases r <;> rfl

theorem refusalCode_toNat (r : RefusalReason) : (refusalCode r).toNat = r.code := by
  cases r <;> rfl

/-- A field of a word, by the word's number. -/
theorem extract_eq_of_div {w : Word} {start len : Nat} {x : BitVec len} (h : w.toNat / 2 ^ start % 2 ^ len = x.toNat) :
    w.extractLsb' start len = x := by
  apply BitVec.eq_of_toNat_eq
  rw [BitVec.extractLsb'_toNat, Nat.shiftRight_eq_div_pow]
  exact h

/-- The number that STATUS spells, when the delivery queue keeps within its places. -/
theorem status_toNat (s : State) (h : s.director.queue.length ≤ 6) : s.status.toNat =
    s.session.state.code + 0x100 * (s.engine 0).statusCode + 0x400 * (s.engine 1).statusCode
      + 0x1000 * (s.engine 2).statusCode + 0x4000 * (s.engine 3).statusCode
      + 0x10000 * s.director.queue.length + 0x100000 * s.session.faultKind.code := by
  have session := sessionState_code_le s.session.state
  have e0 := statusCode_le (s.engine 0)
  have e1 := statusCode_le (s.engine 1)
  have e2 := statusCode_le (s.engine 2)
  have e3 := statusCode_le (s.engine 3)
  have fault := faultKind_code_le s.session.faultKind
  unfold State.status
  rw [BitVec.toNat_ofNat, Nat.mod_eq_of_lt (by omega)]

/-- The number that the COMMAND register reads as. -/
theorem readBack_toNat (r : ReadBack) : r.word.toNat = r.code.toNat + 0x10 * r.result.code + 0x100 * r.reason.code := by
  have code := r.code.isLt
  have result : r.result.code < 16 := by rw [← commandResultCode_toNat]; exact BitVec.isLt _
  have reason : r.reason.code < 16 := by rw [← refusalCode_toNat]; exact BitVec.isLt _
  unfold ReadBack.word
  rw [BitVec.toNat_ofNat, Nat.mod_eq_of_lt (by omega)]

/-- Six named bits at the low end of a register, zeros above them. -/
theorem namedBits (x : BitVec 6) :
    (x.setWidth 32).extractLsb' 0 6 = x ∧ (x.setWidth 32).extractLsb' 6 26 = 0#26 := by
  have hx := x.isLt
  refine ⟨extract_eq_of_div ?_, extract_eq_of_div ?_⟩ <;> rw [BitVec.toNat_setWidth]
  · omega
  · simp only [BitVec.toNat_ofNat]
    omega

/-- Settles O13: the codes are small, so no field of the sum reaches into the next. -/
theorem statusFields : Obligations.StatusFields := by
  refine ⟨fun s h => ?_, fun s => ?_⟩
  · have word := status_toNat s h
    have session := sessionState_code_le s.session.state
    have e0 := statusCode_le (s.engine 0)
    have e1 := statusCode_le (s.engine 1)
    have e2 := statusCode_le (s.engine 2)
    have e3 := statusCode_le (s.engine 3)
    have fault := faultKind_code_le s.session.faultKind
    show s.status.extractLsb' 0 3 = _ ∧ s.status.extractLsb' 3 5 = _ ∧ s.status.extractLsb' 8 2 = _
      ∧ s.status.extractLsb' 10 2 = _ ∧ s.status.extractLsb' 12 2 = _ ∧ s.status.extractLsb' 14 2 = _
      ∧ s.status.extractLsb' 16 3 = _ ∧ s.status.extractLsb' 19 1 = _ ∧ s.status.extractLsb' 20 2 = _
      ∧ s.status.extractLsb' 22 10 = _
    refine ⟨?_, ?_, ?_, ?_, ?_, ?_, ?_, ?_, ?_, ?_⟩ <;> apply extract_eq_of_div <;> rw [word]
    · rw [sessionCode_toNat]; omega
    · rw [BitVec.toNat_ofNat]; omega
    · rw [trunkCode_toNat]; omega
    · rw [trunkCode_toNat]; omega
    · rw [trunkCode_toNat]; omega
    · rw [trunkCode_toNat]; omega
    · rw [BitVec.toNat_ofNat]; omega
    · rw [BitVec.toNat_ofNat]; omega
    · rw [faultCode_toNat]; omega
    · rw [BitVec.toNat_ofNat]; omega
  · have word := readBack_toNat s.regs.readBack
    have code := s.regs.readBack.code.isLt
    have result : s.regs.readBack.result.code < 16 := by rw [← commandResultCode_toNat]; exact BitVec.isLt _
    have reason : s.regs.readBack.reason.code < 16 := by rw [← refusalCode_toNat]; exact BitVec.isLt _
    obtain ⟨cause, causeTop⟩ := namedBits s.regs.intCause
    obtain ⟨enable, enableTop⟩ := namedBits s.regs.intEnable
    show s.regs.readBack.word.extractLsb' 0 4 = _ ∧ s.regs.readBack.word.extractLsb' 4 4 = _
      ∧ s.regs.readBack.word.extractLsb' 8 4 = _ ∧ s.regs.readBack.word.extractLsb' 12 20 = _ ∧ _
    refine ⟨?_, ?_, ?_, ?_, cause, causeTop, enable, enableTop, rfl, rfl, rfl, rfl⟩ <;> apply extract_eq_of_div <;>
      rw [word]
    · omega
    · rw [commandResultCode_toNat]; omega
    · rw [refusalCode_toNat]; omega
    · rw [BitVec.toNat_ofNat]; omega

end Sys2Proof.Proofs

/-! SUPPORT. The memory port (chapter 11): what the completion of an access, a fault and a grant do, by the access in hand
and by the claimant. -/

namespace Sys2Proof.Proofs

open Sys2Proof.Machine Sys2Proof.Laws Sys2Proof.Safety

/-! ### The row of a completion -/

/-- A response still counts up to 1 ms after the issue. -/
theorem inTime_of_le {u : PortUnit} (h : u.timer ≤ 1000) : u.inTime = true := decide_eq_true h

theorem completeAs_of {s : State} {u : PortUnit} {r : Role} (inHand : s.port.unit = some u) (role : u.access.role = r)
    (time : u.timer ≤ 1000) : s.completeAs r = s.completeAccess u := by
  unfold State.completeAs
  rw [inHand]
  exact if_pos ⟨role, inTime_of_le time⟩

theorem accessCompletes_of {s : State} {u : PortUnit} (inHand : s.port.unit = some u) (time : u.timer ≤ 1000) :
    s.accessCompletes = s.completeAccess u := by
  unfold State.accessCompletes
  rw [inHand]
  exact if_pos (inTime_of_le time)

theorem landWrite_write {a : Access} {bs : List Byte} (h : a.op = .writeBurst bs ∨ a.op = .byteWrite bs) (s : State) :
    (s.landWrite a).memory = Memory.writeBytes s.memory a.addr bs := by
  unfold State.landWrite
  rcases h with h | h <;> rw [h] <;> rfl

theorem landWrite_read {a : Access} {k : Nat} (h : a.op = .read k) (s : State) : (s.landWrite a).memory = s.memory := by
  unfold State.landWrite
  rw [h]

theorem readData_write {a : Access} {bs : List Byte} (h : a.op = .writeBurst bs ∨ a.op = .byteWrite bs) (s : State) :
    s.readData a = [] := by
  unfold State.readData
  rcases h with h | h <;> rw [h]

theorem readData_read {a : Access} {k : Nat} (h : a.op = .read k) (s : State) :
    s.readData a = Memory.readBytes s.memory a.addr (4 * k) := by
  unfold State.readData
  rw [h]

theorem next_some {u : PortUnit} {a : Access} {rest : List Access} (h : u.rest = a :: rest) (d : List Byte) :
    u.next d = some { kind := u.kind, access := a, timer := 0, rest := rest, data := d } := by
  unfold PortUnit.next
  rw [h]

/-- The state in which the last access of a unit has completed, before what it was for comes about. -/
def landedLast (s : State) (a : Access) : State :=
  { s with memory := (s.landWrite a).memory, port := { s.port with unit := none } }

theorem landedLast_write {a : Access} {bs : List Byte} (h : a.op = .writeBurst bs ∨ a.op = .byteWrite bs) (s : State) :
    landedLast s a = { freed s with memory := Memory.writeBytes s.memory a.addr bs } := by
  unfold landedLast
  rw [landWrite_write h]
  rfl

theorem landedLast_read {a : Access} {k : Nat} (h : a.op = .read k) (s : State) : landedLast s a = freed s := by
  unfold landedLast
  rw [landWrite_read h]
  rfl

/-- The row of the last access's role: the access lands, the port is free, and what the access was for comes about. -/
theorem completeAs_last {s : State} {kind : UnitKind} {a : Access} {d : List Byte} {r : Role}
    (h : LastAccess s kind a d) (role : a.role = r) :
    s.completeAs r = (landedLast s a).afterAccess kind r (d ++ s.readData a) := by
  obtain ⟨k, time, inHand⟩ := h
  rw [completeAs_of inHand role time, completeAccess_eq, accessLanded_eq, next_none rfl, ← role]
  rfl

/-- Another access of the unit follows: it is on the bus, and what the completed one was for comes about. -/
theorem completeAccess_more {s : State} {u : PortUnit} {a : Access} {rest : List Access} (more : u.rest = a :: rest) :
    s.completeAccess u =
      ({ s with
        memory := (s.landWrite u.access).memory
        port :=
          { s.port with
            unit := some { kind := u.kind, access := a, timer := 0, rest := rest, data := u.data ++ s.readData u.access } } }
        : State).afterAccess u.kind u.access.role (u.data ++ s.readData u.access) := by
  rw [completeAccess_eq, accessLanded_eq, next_some more]

/-! ### Success responses -/

/-- Settles O26: a success response is the completion that its access's role names, and a part brings about nothing
beyond itself. -/
theorem accessCompletes : Obligations.AccessCompletes := by
  intro s u inHand time
  have same : ∀ r, u.access.role = r → s.accessCompletes = s.completeAs r := fun r role => by
    rw [accessCompletes_of inHand time, completeAs_of inHand role time]
  refine ⟨fun next rest bs role more op => ?_, fun next rest k role more op => ?_, ?_⟩
  · show Host.Outcome.next s.accessCompletes = _
    rw [accessCompletes_of inHand time, completeAccess_more more, role, landWrite_write op, readData_write op,
      List.append_nil]
    rfl
  · show Host.Outcome.next s.accessCompletes = _
    rw [accessCompletes_of inHand time, completeAccess_more more, role, landWrite_read op, readData_read op]
    rfl
  · refine ⟨?_, ?_, ?_, ?_, ?_, ?_, ?_, ?_, ?_, ?_, ?_, ?_, ?_⟩ <;> exact fun role => congrArg Host.Outcome.next (same _ role)

/-! ### The writes of a completion -/

/-- A FILLED frame that stands in the queue leaves it with its state write, and is counted (R132, R142). -/
theorem frameWritten_found {l : List QueuedFrame} {i : Nat} {q : QueuedFrame}
    (h : l.find? (fun x => x.slot == some i) = some q) (s : State) (hl : s.director.queue = l) :
    s.frameWritten i = ((s.dropFrame i).unhold i).tally q.trunk Tally.addDelivered := by
  unfold State.frameWritten
  rw [hl, h]

/-- Settles O27: the state write of a completion lands, the next write is issued, and the held bit goes; a FILLED frame
leaves the queue with it. -/
theorem stateWriteCompletes : Obligations.StateWriteCompletes := by
  intro s i k c a next value rest time role op
  have land : (s.landWrite a).memory = Memory.write s.memory a.addr.toNat value := landWrite_write (.inr op) s
  refine ⟨fun inHand => ?_, fun q inHand found => ?_⟩
  · show Host.Outcome.next (s.completeAs .stateWrite) = _
    rw [completeAs_of inHand role time, completeAccess_more rfl]
    dsimp only
    rw [role, land, readData_write (.inr op)]
    rfl
  · refine ⟨_, rfl, ?_⟩
    rw [completeAs_of inHand role time, completeAccess_more rfl]
    dsimp only
    rw [role, land, readData_write (.inr op)]
    unfold State.afterAccess State.stateWritten
    dsimp only
    rw [frameWritten_found found]
    · refine ⟨rfl, rfl, rfl, rfl, get_set_same _ _ _, fun o ne => get_set_other _ _ _ _ ne, ?_⟩
      exact ⟨rfl, rfl, rfl, rfl, rfl, rfl, rfl⟩
    · rfl

/-- The written count takes its number, and a difference of 8 to the reported count raises COMPLETE (R145). -/
theorem countWritten_eq (s : State) (c : Half) : s.countWritten c =
    if (c - s.results.reported).toNat = 8 then
      { s with
        results := { s.results with written := c, reported := c }
        regs := { s.regs with intCause := s.regs.intCause ||| 1#6 } }
    else { s with results := { s.results with written := c } } := rfl

/-- Settles O28: the count write lands, the count is taken, and the entry of a DONE or REJECTED is dequeued. -/
theorem countWriteCompletes : Obligations.CountWriteCompletes := by
  intro s i c a bs role op
  refine ⟨fun last => ⟨_, rfl, ?_⟩, fun last => ⟨_, rfl, ?_⟩⟩
  · rw [completeAs_last last role, landedLast_write (.inr op)]
    unfold State.afterAccess State.countUnitDone
    dsimp only
    rw [countWritten_eq]
    split
    · rename_i eight
      exact ⟨rfl, rfl, rfl, rfl, rfl, fun _ => ⟨rfl, rfl⟩, fun h => absurd eight h, rfl, rfl, rfl, rfl, rfl, rfl, rfl, rfl⟩
    · rename_i other
      exact ⟨rfl, rfl, rfl, rfl, rfl, fun h => absurd h other, fun _ => ⟨rfl, rfl⟩, rfl, rfl, rfl, rfl, rfl, rfl, rfl, rfl⟩
  · rw [completeAs_last last role, landedLast_write (.inr op)]
    unfold State.afterAccess State.countUnitDone
    dsimp only
    rw [countWritten_eq]
    split
    · rename_i eight
      exact ⟨rfl, rfl, rfl, rfl, rfl, fun _ => ⟨rfl, rfl⟩, fun h => absurd eight h, rfl, rfl, rfl, rfl, rfl, rfl, rfl, rfl⟩
    · rename_i other
      exact ⟨rfl, rfl, rfl, rfl, rfl, fun h => absurd h other, fun _ => ⟨rfl, rfl⟩, rfl, rfl, rfl, rfl, rfl, rfl, rfl, rfl⟩

theorem completeCheck_of_eq {s : State} (h : s.results.written = s.results.reported) : s.completeCheck = s := if_pos h

/-- The COMPLETE check raises COMPLETE where the counts differ (R145). -/
theorem completeCheck_of_ne {s : State} (h : s.results.written ≠ s.results.reported) : s.completeCheck =
    { s with
      results := { s.results with reported := s.results.written }
      regs := { s.regs with intCause := s.regs.intCause ||| 1#6 } } := if_neg h

/-- Settles O29: each of these units ends with its last access, and what it brings about is one update. -/
theorem uncountedUnitsComplete : Obligations.UncountedUnitsComplete := by
  refine ⟨fun s i a bs => ⟨fun role op last => ?_, fun role op last => ?_⟩, fun s u a bs role op last => ?_⟩
  · show Host.Outcome.next (s.completeAs .roundResult) = _
    rw [completeAs_last last role, landedLast_write (.inl op)]
    rfl
  · show Host.Outcome.next (s.completeAs .giveBack) = _
    rw [completeAs_last last role, landedLast_write (.inr op)]
    rfl
  · have ran : exec .sweepEndUnitDone s
        = .next ({ freed s with memory := Memory.writeBytes s.memory a.addr bs } : State).headerDone.completeCheck := by
      show Host.Outcome.next (s.completeAs .sweepEnd) = _
      rw [completeAs_last last role, landedLast_write (.inl op)]
      rfl
    refine ⟨fun eq => ?_, fun ne => ?_⟩
    · rw [ran, completeCheck_of_eq]
      · rfl
      · exact eq
    · rw [ran, completeCheck_of_ne]
      · rfl
      · exact ne

/-! ### Faults, and accesses that failed or were abandoned (R178 to R181) -/

theorem landPerhaps_read_memory {a : Access} {k : Nat} (h : a.op = .read k) (s : State) :
    (s.landPerhaps a).memory = s.memory := by
  rw [landPerhaps_read h]

theorem accessFails_of {s : State} {u : PortUnit} (inHand : s.port.unit = some u) (time : u.timer ≤ 1000) :
    s.accessFails = s.enterFaulted u u.access.op.errorKind := by
  unfold State.accessFails
  rw [inHand]
  exact if_pos (inTime_of_le time)

theorem accessTimesOut_of {s : State} {u : PortUnit} (inHand : s.port.unit = some u) (late : 1000 ≤ u.timer) :
    s.accessTimesOut = s.enterFaulted u .timeout := by
  unfold State.accessTimesOut
  rw [inHand]
  exact if_pos late

/-- Settles O30: an error in time and a timeout enter FAULTED, whose changes are read off part by part. -/
theorem faultEntered : Obligations.FaultEntered := by
  intro s u inHand faulted
  have enters : ∀ (o : Host.Outcome State Fault Refusal) (k : FaultKind), o = .next (s.enterFaulted u k) → faulted o k := by
    intro o k ho
    refine ⟨_, ho, ?_⟩
    rw [enterFaulted_eq]
    refine ⟨rfl, rfl, rfl, rfl, rfl, fun c hc => ?_, fun hc => ?_, rfl, rfl, rfl, rfl, rfl, rfl, rfl, rfl, rfl, fun k hk => ?_⟩
    · simp [faultRegs, hc]
    · simp [faultRegs, hc]
    · exact landPerhaps_read_memory hk s
  refine ⟨fun k time op => enters _ _ ?_, fun bs time op => enters _ _ ?_, fun late => enters _ _ ?_⟩
  · show Host.Outcome.next s.accessFails = _
    rw [accessFails_of inHand time, op]
    rfl
  · show Host.Outcome.next s.accessFails = _
    rw [accessFails_of inHand time]
    rcases op with op | op <;> rw [op] <;> rfl
  · show Host.Outcome.next s.accessTimesOut = _
    rw [accessTimesOut_of inHand late]

/-- A byte that a cut write does not cover keeps its value. -/
theorem read_writeBytesPerhaps_outside (count : Nat) (bs : List Byte) (m : Memory) (wf : Memory.wf m) (a x : Word) (k : Nat)
    (len : bs.length ≤ 64) (out : bs.length ≤ (x - a).toNat) :
    Memory.read (Memory.writeBytesPerhaps count m a k bs) x.toNat = Memory.read m x.toNat := by
  induction bs generalizing m a k with
  | nil => rfl
  | cons v vs ih =>
    rw [List.length_cons] at len out
    have wf' : Memory.wf (if Config.byteLands count k then Memory.write m a.toNat v else m) := by
      split
      · exact wf_write m wf _ a.isLt v
      · exact wf
    have ne : x.toNat ≠ a.toNat := fun h => by
      have : x = a := BitVec.eq_of_toNat_eq h
      subst this
      simp at out
    unfold Memory.writeBytesPerhaps
    rw [ih _ wf' (a + 1) (k + 1) (by omega) (by bv_omega)]
    split
    · rw [read_write m wf, if_neg ne]
    · rfl

/-- A byte that a cut write covers has its old value or its new one (log 10). -/
theorem read_writeBytesPerhaps_inside (count : Nat) (bs : List Byte) (m : Memory) (wf : Memory.wf m) (a : Word) (k j : Nat)
    (v : Byte) (len : bs.length ≤ 64) (hv : bs[j]? = some v) :
    Memory.read (Memory.writeBytesPerhaps count m a k bs) (a + BitVec.ofNat 32 j).toNat
        = Memory.read m (a + BitVec.ofNat 32 j).toNat
      ∨ Memory.read (Memory.writeBytesPerhaps count m a k bs) (a + BitVec.ofNat 32 j).toNat = v := by
  induction bs generalizing m a k j with
  | nil => simp at hv
  | cons w ws ih =>
    rw [List.length_cons] at len
    have wf' : Memory.wf (if Config.byteLands count k then Memory.write m a.toNat w else m) := by
      split
      · exact wf_write m wf _ a.isLt w
      · exact wf
    unfold Memory.writeBytesPerhaps
    cases j with
    | zero =>
      obtain rfl := Option.some.inj hv
      rw [BitVec.add_zero, read_writeBytesPerhaps_outside count ws _ wf' (a + 1) a (k + 1) (by omega) (by bv_omega)]
      split
      · rw [read_write m wf, if_pos rfl]
        exact .inr rfl
      · exact .inl rfl
    | succ j =>
      have hj : j < ws.length := by
        obtain ⟨h, _⟩ := List.getElem?_eq_some_iff.1 hv
        simpa using h
      have shift : a + BitVec.ofNat 32 (j + 1) = a + 1 + BitVec.ofNat 32 j := by bv_omega
      have ne : (a + BitVec.ofNat 32 (j + 1)).toNat ≠ a.toNat := by bv_omega
      have old : Memory.read (if Config.byteLands count k then Memory.write m a.toNat w else m)
          (a + BitVec.ofNat 32 (j + 1)).toNat = Memory.read m (a + BitVec.ofNat 32 (j + 1)).toNat := by
        split
        · rw [read_write m wf, if_neg ne]
        · rfl
      rw [← old, shift]
      exact ih _ wf' (a + 1) (k + 1) j (by omega) hv

theorem landPerhaps_write {a : Access} {bs : List Byte} (h : a.op = .writeBurst bs ∨ a.op = .byteWrite bs) (s : State) :
    (s.landPerhaps a).memory = Memory.writeBytesPerhaps s.free s.memory a.addr 0 bs := by
  unfold State.landPerhaps
  rcases h with h | h <;> rw [h] <;> rfl

theorem endAbandoned_some {s : State} {a : Abandoned} (h : s.port.abandoned = some a) : s.endAbandoned =
    { s with
      memory := (s.landPerhaps a.access).memory, free := (s.landPerhaps a.access).free
      port := { s.port with abandoned := none } } := by
  unfold State.endAbandoned
  rw [h]
  dsimp only
  rw [landPerhaps_eq]
  rfl

/-- Memory after an error response or a timeout: as it was, or with the write landed byte by byte. -/
theorem failed_memory {s t : State} {u : PortUnit} (inHand : s.port.unit = some u)
    (h : exec .accessError s = .next t ∨ exec .accessTimeout s = .next t) :
    t.memory = s.memory ∨ t.memory = (s.landPerhaps u.access).memory := by
  rcases h with h | h
  · have ht : s.accessFails = t := Host.Outcome.next.inj h
    rw [← ht]
    unfold State.accessFails
    rw [inHand]
    dsimp only
    split
    · exact .inr (enterFaulted_memory s u _)
    · exact .inl rfl
  · have ht : s.accessTimesOut = t := Host.Outcome.next.inj h
    rw [← ht]
    unfold State.accessTimesOut
    rw [inHand]
    dsimp only
    split
    · exact .inr (enterFaulted_memory s u _)
    · exact .inl rfl

/-- Settles O31: byte by byte a cut write has landed or not, and reaches no byte beyond its own. -/
theorem failedAndAbandonedAccesses : Obligations.FailedAndAbandonedAccesses := by
  refine ⟨fun s t u bs wf len inHand op ran => ?_, fun s a onBus => ⟨s.endAbandoned, rfl, ?_⟩⟩
  · rcases failed_memory inHand ran with h | h <;> rw [h]
    · exact ⟨fun _ _ _ => .inl rfl, fun _ _ => rfl⟩
    · rw [landPerhaps_write op]
      exact ⟨fun k v hv => read_writeBytesPerhaps_inside _ bs _ wf _ 0 k v len hv,
        fun x out => read_writeBytesPerhaps_outside _ bs _ wf _ x 0 len out⟩
  · rw [endAbandoned_some onBus]
    refine ⟨rfl, fun k op => ?_, fun bs x wf len op out => ?_, fun bs k v wf len op hv => ?_,
      rfl, rfl, rfl, rfl, rfl, rfl, rfl, rfl, rfl⟩
    · exact landPerhaps_read_memory op s
    · show Memory.read (s.landPerhaps a.access).memory _ = _
      rw [landPerhaps_write op]
      exact read_writeBytesPerhaps_outside _ bs _ wf _ x 0 len out
    · show Memory.read (s.landPerhaps a.access).memory _ = _ ∨ Memory.read (s.landPerhaps a.access).memory _ = _
      rw [landPerhaps_write op]
      exact read_writeBytesPerhaps_inside _ bs _ wf _ 0 k v len hv

end Sys2Proof.Proofs

/-! SUPPORT. The grant (R177): which claimant the free port takes, and what each puts on the bus, byte by byte. -/

namespace Sys2Proof.Proofs

open Sys2Proof.Machine Sys2Proof.Laws Sys2Proof.Safety

/-! ### Who is granted -/

theorem exec_portGrant_next {s : State} {r : Request} (free : s.portFree = true) (next : s.nextRequest = some r) :
    exec .portGrant s = .next (s.grant r) := by
  show Host.Outcome.next _ = _
  rw [if_pos free, next]

theorem exec_portGrant_blocked {s : State} (h : s.portFree = false) : exec .portGrant s = .next s := by
  show Host.Outcome.next _ = _
  rw [if_neg (by simp [h])]

theorem nextRequest_result {s : State} {r : Request} (h : s.resultRequest = some r) : s.nextRequest = some r := by
  unfold State.nextRequest
  rw [h]

theorem nextRequest_delivery {s : State} {r : Request} (no : s.resultRequest = none) (h : s.deliveryRequest = some r) :
    s.nextRequest = some r := by
  unfold State.nextRequest
  rw [no, h]

theorem nextRequest_header {s : State} {r : Request} (no : s.resultRequest = none) (no' : s.deliveryRequest = none)
    (h : s.headerRequest = some r) : s.nextRequest = some r := by
  unfold State.nextRequest
  rw [no, no', h]

theorem nextRequest_sweeper {s : State} {r : Request} (no : s.resultRequest = none) (no' : s.deliveryRequest = none)
    (no'' : s.headerRequest = none) (h : s.sweeperRequest = some r) : s.nextRequest = some r := by
  unfold State.nextRequest
  rw [no, no', no'', h]

/-- Settles O24: the requests are asked in the order of R177, and a port that is not free asks none. -/
theorem grantOrder : Obligations.GrantOrder := by
  intro s
  refine ⟨fun free => ⟨fun r h => ?_, fun no r h => ?_, fun no no' r h => ?_, fun no no' no'' r h => ?_⟩, fun h => ?_⟩
  · exact exec_portGrant_next free (nextRequest_result h)
  · exact exec_portGrant_next free (nextRequest_delivery no h)
  · exact exec_portGrant_next free (nextRequest_header no no' h)
  · exact exec_portGrant_next free (nextRequest_sweeper no no' no'' h)
  · refine exec_portGrant_blocked ?_
    rw [← Bool.not_eq_true, portFree_iff]
    rintro ⟨unit, abandoned, standby, faulted⟩
    rcases h with h | h | h | h
    · exact h unit
    · exact h abandoned
    · exact standby h
    · exact faulted h

/-! ### The bytes that units write -/

theorem outcomeByte_eq (r : ResultCode) : BitVec.ofNat 8 r.code = outcomeByte r := by
  cases r <;> rfl

theorem attemptByte_eq (o : Option AttemptOutcome) : BitVec.ofNat 8 (AttemptOutcome.code o) = attemptByte o := by
  cases o with
  | none => rfl
  | some o => cases o <;> rfl

theorem classByte_eq (c : FrameClass) : BitVec.ofNat 8 c.code = classByte c := by
  cases c <;> rfl

/-- Bytes 40 to 51 of a send envelope, by their layout (R59). -/
theorem resultBytes_eq (r : SendResult) : r.bytes =
    [outcomeByte r.outcome, attemptByte r.last, BitVec.ofNat 8 r.attempts, BitVec.ofNat 8 r.losses] ++ wordBytes r.stamp
      ++ halfBytes (BitVec.ofNat 16 r.repeats) ++ halfBytes (BitVec.ofNat 16 r.overruns) := by
  rw [← outcomeByte_eq, ← attemptByte_eq]
  rfl

/-- The payload field: 24 bytes, zeros behind the payload (R60). -/
theorem padded_eq (payload : List Byte) : padded payload = (List.range 24).map (fun k => payload.getD k 0#8) := by
  apply List.ext_getElem
  · simp [padded]
  · intro k h _
    have hk : k < 24 := by simp [padded] at h; omega
    simp only [padded, List.getElem_take, List.getElem_map, List.getElem_range]
    rw [List.getElem_append]
    split
    · rename_i hl
      simp [List.getD, hl]
    · rename_i hl
      rw [List.getElem_replicate]
      simp [List.getD, List.getElem?_eq_none (Nat.le_of_not_lt hl)]

/-- Bytes 8 to 39 of a filled envelope, by their layout (R60). -/
theorem laterBytes_eq (q : QueuedFrame) : q.laterBytes =
    [BitVec.ofNat 8 q.channel, classByte q.cls, BitVec.ofNat 8 q.length,
      BitVec.ofNat 8 (q.broadcast.toNat + 2 * q.group.toNat + 4 * q.heldStandby.toNat + 8 * q.clash.toNat)]
      ++ wordBytes q.stamp ++ (List.range 24).map (fun k => q.payload.getD k 0#8) := by
  rw [← padded_eq, ← classByte_eq]
  rfl

/-! ### Grants on an idle bus -/

/-- The port with a unit just granted. -/
def grantedPort (kind : UnitKind) (first : Access) (rest : List Access) : Port :=
  { unit := some { kind := kind, access := first, timer := 0, rest := rest, data := [] }, abandoned := none }

theorem numberUnit_port (s : State) (k : UnitKind) : (s.numberUnit k).port = s.port := by
  cases k <;> rfl

/-- A grant on an idle bus: the number is taken, and the first access is issued. -/
theorem grant_idle {s : State} (idle : s.port = { unit := none, abandoned := none }) (r : Request) :
    s.grant r = { s.numberUnit r.kind with port := grantedPort r.kind r.first r.rest } := by
  unfold State.grant State.issueUnit
  rw [numberUnit_port, idle]
  rfl

theorem portFree_idle {s : State} (idle : s.port = { unit := none, abandoned := none })
    (awake : s.session.state ≠ .standby) (live : s.session.state ≠ .faulted) : s.portFree = true :=
  portFree_iff.2 ⟨by rw [idle], by rw [idle], awake, live⟩

theorem exec_portGrant_idle {s : State} {r : Request} (idle : s.port = { unit := none, abandoned := none })
    (awake : s.session.state ≠ .standby) (live : s.session.state ≠ .faulted) (next : s.nextRequest = some r) :
    exec .portGrant s = .next { s.numberUnit r.kind with port := grantedPort r.kind r.first r.rest } := by
  rw [exec_portGrant_next (portFree_idle idle awake live) next, grant_idle idle]

/-- The states in which the two writers write (R132, R144). -/
theorem writersLive_of {s : State} (h : s.session.state = .running ∨ s.session.state = .paused
    ∨ s.session.state = .settling ∨ s.session.state = .stopping) : s.writersLive = true := by
  unfold State.writersLive
  rcases h with h | h | h | h <;> rw [h]

theorem awake_of_writers {s : State} (h : s.session.state = .running ∨ s.session.state = .paused
    ∨ s.session.state = .settling ∨ s.session.state = .stopping) :
    s.session.state ≠ .standby ∧ s.session.state ≠ .faulted := by
  rcases h with h | h | h | h <;> simp [h]

theorem resultRequest_nil {s : State} (live : s.writersLive = true) (queue : s.results.queue = []) :
    s.resultRequest = none := by
  unfold State.resultRequest
  rw [if_pos live, queue]

theorem resultRequest_done {s : State} (live : s.writersLive = true) {i : Nat} {r : SendResult} {rest : List Work}
    (queue : s.results.queue = .done i r :: rest) :
    s.resultRequest = requestOf (.completion i s.nextNumber) (s.doneUnit i r s.nextNumber) := by
  unfold State.resultRequest
  rw [if_pos live, queue]

theorem resultRequest_rejected {s : State} (live : s.writersLive = true) {i : Nat} {reason : ResultCode}
    {rest : List Work} (queue : s.results.queue = .rejected i reason :: rest) :
    s.resultRequest = requestOf (.completion i s.nextNumber) (s.rejectedUnit i reason s.nextNumber) := by
  unfold State.resultRequest
  rw [if_pos live, queue]

theorem resultRequest_round {s : State} (live : s.writersLive = true) {i : Nat} {r : SendResult} {rest : List Work}
    (queue : s.results.queue = .round i r :: rest) :
    s.resultRequest = requestOf (.roundResult i) [s.resultAccess .roundResult i r] := by
  unfold State.resultRequest
  rw [if_pos live, queue]

theorem deliveryRequest_filled {s : State} (live : s.writersLive = true) {q : QueuedFrame} {i : Nat}
    (next : s.director.nextWrite = some q) (slot : q.slot = some i) :
    s.deliveryRequest = requestOf (.filled i s.nextNumber) (s.filledUnit i q s.nextNumber) := by
  unfold State.deliveryRequest
  rw [if_pos live, next]
  dsimp only
  rw [slot]

theorem deliveryRequest_giveBack {s : State} (stopping : s.session.state = .stopping) (noFrame : s.director.nextWrite = none)
    {o : Offered} {rest : List Offered} (list : s.director.receiveList = o :: rest) :
    s.deliveryRequest = requestOf (.giveBack o.index) [s.stateAccess .giveBack o.index offered] := by
  unfold State.deliveryRequest State.giveBackRequest
  rw [if_pos (writersLive_of (by simp [stopping])), noFrame, if_pos stopping, list]

theorem headerRequest_cons {s : State} {u : HeaderUnit} {rest : List HeaderUnit} (h : s.header = u :: rest) :
    s.headerRequest = requestOf (.header u) (s.headerAccesses u) := by
  unfold State.headerRequest
  rw [h]

theorem headerRequest_nil {s : State} (h : s.header = []) : s.headerRequest = none := by
  unfold State.headerRequest
  rw [h]

theorem sweeperRequest_of {s : State} {w : Sweep} (h : s.sweeper.sweep = some w) :
    s.sweeperRequest = requestOf .sweeper [s.sweepAccess w.index w.stage] := by
  unfold State.sweeperRequest
  rw [h]

/-- Settles O25: the granted request is the claimant's by the order of R177; its accesses are those of its unit, whose
bytes are laid out as the manual has them. -/
theorem completionUnits : Obligations.CompletionUnits := by
  refine ⟨fun s i st idle => ?_, fun s idle awake live => ?_⟩
  · obtain ⟨awake, faultless⟩ := awake_of_writers st
    have live := writersLive_of st
    intro c pos env tail granted resultBytes flags payloadBytes
    have given : ∀ {r : Request}, s.nextRequest = some r →
        exec .portGrant s = .next { s.numberUnit r.kind with port := grantedPort r.kind r.first r.rest } :=
      exec_portGrant_idle idle awake faultless
    refine ⟨fun r rest queue => ?_, fun reason rest queue => ?_, fun q queue next slot => ?_, fun r rest queue => ?_⟩
    · refine (given (nextRequest_result (resultRequest_done live queue))).trans ?_
      simp only [State.resultAccess, resultBytes_eq]
      rfl
    · refine (given (nextRequest_result (resultRequest_rejected live queue))).trans ?_
      simp only [outcomeByte_eq]
      rfl
    · have request := deliveryRequest_filled live next slot
      refine (given (nextRequest_delivery (resultRequest_nil live queue) request)).trans ?_
      simp only [laterBytes_eq]
      rfl
    · refine (given (nextRequest_result (resultRequest_round live queue))).trans ?_
      simp only [State.resultAccess, resultBytes_eq]
      rfl
  · have given : ∀ {r : Request}, s.nextRequest = some r →
        exec .portGrant s = .next { s.numberUnit r.kind with port := grantedPort r.kind r.first r.rest } :=
      exec_portGrant_idle idle awake live
    intro header env granted tallies swept
    refine ⟨fun no stopping noFrame o rest list => ?_, fun no no' rest => ?_, fun no no' empty w sweep => ?_⟩
    · exact given (nextRequest_delivery no (deliveryRequest_giveBack stopping noFrame list))
    · exact ⟨fun h => given (nextRequest_header no no' (headerRequest_cons h)),
        fun h => given (nextRequest_header no no' (headerRequest_cons h)),
        fun h => given (nextRequest_header no no' (headerRequest_cons h)),
        fun time count h => given (nextRequest_header no no' (headerRequest_cons h)),
        fun time count h => given (nextRequest_header no no' (headerRequest_cons h))⟩
    · have request := given (nextRequest_sweeper no no' (headerRequest_nil empty) (sweeperRequest_of sweep))
      refine ⟨fun h => ?_, fun h => ?_, fun h => ?_, fun c h => ?_⟩ <;> rw [h] at request <;> exact request

end Sys2Proof.Proofs

/-! SUPPORT. The sweeper (chapter 4): the order of a sweep, and what it decides on each read and on a receive claim. -/

namespace Sys2Proof.Proofs

open Sys2Proof.Machine Sys2Proof.Laws Sys2Proof.Safety

/-! ### The order of a sweep (R69) -/

/-- The k-th index of a sweep whose send-side pass begins at `start`. -/
def visited (f start k : Nat) : Nat := if k < f then (start + k) % f else k

/-- On the send side the pass wraps once. -/
theorem visited_send {f start k : Nat} (hs : start < f) (hk : k < f) :
    visited f start k = if start + k < f then start + k else start + k - f := by
  unfold visited
  rw [if_pos hk]
  split
  · exact Nat.mod_eq_of_lt ‹_›
  · rw [Nat.mod_eq_sub_mod (by omega), Nat.mod_eq_of_lt (by omega)]

theorem visited_receive {f start k : Nat} (hk : f ≤ k) : visited f start k = k := if_neg (by omega)

theorem nextIndex_visited {n f start k : Nat} (hf : f < n) (hs : start < f) (hk : k + 1 < n) :
    nextIndex n f start (visited f start k) = some (visited f start (k + 1)) := by
  unfold nextIndex
  dsimp only
  rcases Nat.lt_trichotomy (k + 1) f with h | h | h
  · rw [visited_send hs (by omega), visited_send hs h]
    grind
  · rw [visited_send hs (by omega), visited_receive (by omega)]
    grind
  · rw [visited_receive (by omega), visited_receive (by omega)]
    grind

theorem nextIndex_last {n f start : Nat} (hf : f < n) : nextIndex n f start (visited f start (n - 1)) = none := by
  rw [visited_receive (by omega)]
  unfold nextIndex
  grind

/-- Each index is visited at one place alone. -/
theorem visited_once {n f start i : Nat} (hf : f < n) (hs : start < f) (hi : i < n) :
    ∃ k, k < n ∧ visited f start k = i ∧ ∀ j, j < n → visited f start j = i → j = k := by
  have place : ∀ j, visited f start j = if j < f then (if start + j < f then start + j else start + j - f) else j := by
    intro j
    split
    · exact visited_send hs ‹_›
    · exact visited_receive (by omega)
  refine ⟨if i < f then (if start ≤ i then i - start else i + f - start) else i, ?_, ?_, fun j hj => ?_⟩
  · grind
  · rw [place]
    grind
  · rw [place]
    grind

theorem indexHandled_cut {s : State} {w : Sweep} (h : s.sweeper.sweep = some w) (cut : w.cut = true) :
    s.indexHandled = { s with sweeper := { s.sweeper with sweep := none } } := by
  unfold State.indexHandled
  rw [h]
  exact if_pos cut

theorem indexHandled_next {s : State} {w : Sweep} (h : s.sweeper.sweep = some w) (cut : w.cut = false) {i : Nat}
    (next : nextIndex s.session.n s.session.f w.start w.index = some i) : s.indexHandled =
      { s with sweeper := { s.sweeper with sweep := some { w with index := i, stage := .word0 } } } := by
  unfold State.indexHandled
  rw [h]
  dsimp only
  rw [if_neg (by simp [cut]), next]
  rfl

theorem indexHandled_last {s : State} {w : Sweep} (h : s.sweeper.sweep = some w) (cut : w.cut = false)
    (last : nextIndex s.session.n s.session.f w.start w.index = none) : s.indexHandled = s.sweepEnds := by
  unfold State.indexHandled
  rw [h]
  dsimp only
  rw [if_neg (by simp [cut]), last]

/-- Settles O15: the pass wraps once and then goes up the receive side, so each index has one place; the end of an index is
read off its four cases. -/
theorem sweepOrder : Obligations.SweepOrder := by
  refine ⟨fun n f start _ hf hs => ?_, fun s w h => ⟨fun cut => ?_, fun cut i next => ?_, fun cut last again => ?_,
    fun cut last again => ?_⟩⟩
  · intro visit
    refine ⟨?_, fun k hk => nextIndex_visited hf hs hk, nextIndex_last hf, fun i hi => visited_once hf hs hi⟩
    show visited f start 0 = start
    rw [visited_send hs (by omega)]
    grind
  · exact indexHandled_cut h cut
  · exact indexHandled_next h cut next
  · rw [indexHandled_last h cut last]
    unfold State.sweepEnds
    dsimp only
    rw [if_neg (by simp [again])]
    rfl
  · rw [indexHandled_last h cut last]
    unfold State.sweepEnds
    dsimp only
    rw [if_pos again]
    rfl

/-! ### Reads -/

theorem sweeperAccess_last {s : State} {w : Sweep} {a : Access} (h : SweeperAccess s w a) : LastAccess s .sweeper a [] := h.2

/-- The row of a read: the port is free, and what the read was for is decided on the bytes that memory holds. -/
theorem completeAs_read {s : State} {w : Sweep} {r : Role} {addr : Word} {k : Nat}
    (h : SweeperAccess s w { role := r, addr := addr, op := .read k }) :
    s.completeAs r = (freed s).afterAccess .sweeper r (Memory.readBytes s.memory addr (4 * k)) := by
  rw [completeAs_last (sweeperAccess_last h) rfl, landedLast_read rfl]
  rfl

theorem byte_eq_of_toNat {x y : Byte} (h : x.toNat = y.toNat) : x = y := BitVec.eq_of_toNat_eq h

theorem byte_ne_of_toNat {x y : Byte} (h : x.toNat ≠ y.toNat) : x ≠ y := fun e => h (by rw [e])

theorem not_cancelRequested {bs : List Byte} (h : (byteAt bs 1).getLsbD 0 = false) : ¬ cancelRequested bs = true :=
  fun k => Bool.noConfusion (h.symm.trans k)

theorem byteAt_readBytes_zero (m : Memory) (a : Word) (n : Nat) :
    byteAt (Memory.readBytes m a (n + 1)) 0 = Memory.read m a.toNat := rfl

theorem byteAt_readBytes_one (m : Memory) (a : Word) (n : Nat) :
    byteAt (Memory.readBytes m a (n + 2)) 1 = Memory.read m (a + 1).toNat := rfl

/-- Word 0 of an index that is held: a cancel is passed on (R76). -/
theorem word0Read_held {s : State} {w : Sweep} (h : s.sweeper.sweep = some w)
    (held : s.sweeper.held.getLsbD w.index = true) (bs : List Byte) :
    s.word0Read bs = (if cancelRequested bs then s.passCancel w.index else s).indexHandled := by
  unfold State.word0Read
  rw [h]
  exact if_pos held

theorem word0Read_send {s : State} {w : Sweep} (h : s.sweeper.sweep = some w)
    (held : s.sweeper.held.getLsbD w.index = false) (side : w.index < s.session.f) (bs : List Byte) :
    s.word0Read bs = s.sendWord0 w.index bs := by
  unfold State.word0Read
  rw [h]
  dsimp only
  rw [if_neg (by simp [State.isHeld, held]), if_pos side]

theorem word0Read_receive {s : State} {w : Sweep} (h : s.sweeper.sweep = some w)
    (held : s.sweeper.held.getLsbD w.index = false) (side : s.session.f ≤ w.index) (bs : List Byte) :
    s.word0Read bs = s.receiveWord0 w.index bs := by
  unfold State.word0Read
  rw [h]
  dsimp only
  rw [if_neg (by simp [State.isHeld, held]), if_neg (by omega)]

theorem setStage_eq {s : State} {w : Sweep} (h : s.sweeper.sweep = some w) (g : SweepStage) :
    s.setStage g = staged s w g := by
  unfold State.setStage
  rw [h]
  rfl

section WordReads

variable {s : State} {w : Sweep} {bs : List Byte} (sweep : s.sweeper.sweep = some w)
include sweep

theorem word0Read_left (held : s.sweeper.held.getLsbD w.index = true) (cancel : (byteAt bs 1).getLsbD 0 = false) :
    s.word0Read bs = s.indexHandled := by
  rw [word0Read_held sweep held, if_neg (not_cancelRequested cancel)]

theorem word0Read_sendCancel (held : s.sweeper.held.getLsbD w.index = true) (cancel : (byteAt bs 1).getLsbD 0 = true)
    (side : w.index < s.session.f) : s.word0Read bs = (s.sendCancel w.index).indexHandled := by
  rw [word0Read_held sweep held, if_pos (show cancelRequested bs = true from cancel)]
  exact congrArg State.indexHandled (if_pos side)

theorem word0Read_receiveCancel (held : s.sweeper.held.getLsbD w.index = true) (cancel : (byteAt bs 1).getLsbD 0 = true)
    (side : s.session.f ≤ w.index) : s.word0Read bs = (s.receiveCancel w.index).indexHandled := by
  rw [word0Read_held sweep held, if_pos (show cancelRequested bs = true from cancel)]
  exact congrArg State.indexHandled (if_neg (by omega))

/-- A send-side index that is not held, by its state byte, its cancel request and PAUSED (R72, R78). -/
theorem sendWord0_cases (i : Nat) :
    ((byteAt bs 0).toNat = 2 → s.sendWord0 i bs = (rejecting s i .wrongSide).indexHandled)
    ∧ ((byteAt bs 0).toNat = 1 → (byteAt bs 1).getLsbD 0 = true → s.sendWord0 i bs = (cancelling s i).indexHandled)
    ∧ ((byteAt bs 0).toNat = 1 → (byteAt bs 1).getLsbD 0 = false → s.session.state ≠ .paused →
        s.sendWord0 i bs = staged s w .envelope)
    ∧ ((byteAt bs 0).toNat = 1 → (byteAt bs 1).getLsbD 0 = false → s.session.state = .paused →
        s.sendWord0 i bs = s.indexHandled)
    ∧ ((byteAt bs 0).toNat ≠ 1 → (byteAt bs 0).toNat ≠ 2 → s.sendWord0 i bs = s.indexHandled) := by
  have other : (byteAt bs 0).toNat = 1 → byteAt bs 0 ≠ offered := fun v => byte_ne_of_toNat (by rw [v]; decide)
  unfold State.sendWord0
  refine ⟨fun v => ?_, fun v c => ?_, fun v c st => ?_, fun v c st => ?_, fun one two => ?_⟩
  · rw [if_pos (byte_eq_of_toNat (y := offered) v)]
    rfl
  · rw [if_neg (other v), if_pos (byte_eq_of_toNat (y := posted) v), if_pos (show cancelRequested bs = true from c)]
    rfl
  · rw [if_neg (other v), if_pos (byte_eq_of_toNat (y := posted) v), if_neg (not_cancelRequested c), if_neg st,
      setStage_eq sweep]
  · rw [if_neg (other v), if_pos (byte_eq_of_toNat (y := posted) v), if_neg (not_cancelRequested c), if_pos st]
  · rw [if_neg (byte_ne_of_toNat (y := offered) two), if_neg (byte_ne_of_toNat (y := posted) one)]

/-- A receive-side index that is not held, by its state byte and its cancel request (R75). -/
theorem receiveWord0_cases (i : Nat) :
    ((byteAt bs 0).toNat = 1 → s.receiveWord0 i bs = (rejecting s i .wrongSide).indexHandled)
    ∧ ((byteAt bs 0).toNat = 2 → (byteAt bs 1).getLsbD 0 = true →
        s.receiveWord0 i bs = (rejecting s i .cancelled).indexHandled)
    ∧ ((byteAt bs 0).toNat = 2 → (byteAt bs 1).getLsbD 0 = false → s.receiveWord0 i bs = staged s w .word1)
    ∧ ((byteAt bs 0).toNat ≠ 1 → (byteAt bs 0).toNat ≠ 2 → s.receiveWord0 i bs = s.indexHandled) := by
  have other : (byteAt bs 0).toNat = 2 → byteAt bs 0 ≠ posted := fun v => byte_ne_of_toNat (by rw [v]; decide)
  unfold State.receiveWord0
  refine ⟨fun v => ?_, fun v c => ?_, fun v c => ?_, fun one two => ?_⟩
  · rw [if_pos (byte_eq_of_toNat (y := posted) v)]
    rfl
  · rw [if_neg (other v), if_pos (byte_eq_of_toNat (y := offered) v), if_pos (show cancelRequested bs = true from c)]
    rfl
  · rw [if_neg (other v), if_pos (byte_eq_of_toNat (y := offered) v), if_neg (not_cancelRequested c), setStage_eq sweep]
  · rw [if_neg (byte_ne_of_toNat (y := posted) one), if_neg (byte_ne_of_toNat (y := offered) two)]

/-- Word 1 of an OFFERED envelope, by its mask and the room (R75). -/
theorem word1Read_cases :
    ((byteAt bs 0).toNat = 0 ∨ 16 ≤ (byteAt bs 0).toNat →
      s.word1Read bs = (rejecting s w.index .badField).indexHandled)
    ∧ ((byteAt bs 0).toNat ≠ 0 → (byteAt bs 0).toNat < 16 → 32 ≤ s.director.receiveList.length →
      s.word1Read bs = s.indexHandled)
    ∧ ((byteAt bs 0).toNat ≠ 0 → (byteAt bs 0).toNat < 16 → s.director.receiveList.length < 32 →
      s.word1Read bs = staged s w (.claim (.receive (byteAt bs 0)))) := by
  have valid : maskValid (byteAt bs 0) = true ↔ (byteAt bs 0).toNat ≠ 0 ∧ (byteAt bs 0).toNat < 16 := by
    simp [maskValid, ← BitVec.toNat_inj]
  unfold State.word1Read
  rw [sweep]
  dsimp only
  refine ⟨fun bad => ?_, fun nz small full => ?_, fun nz small room => ?_⟩
  · rw [if_neg (by rw [valid]; omega)]
    rfl
  · rw [if_pos (valid.2 ⟨nz, small⟩), if_neg (show ¬ s.director.receiveList.length < Config.receivePlaces from Nat.not_lt.2 full)]
  · rw [if_pos (valid.2 ⟨nz, small⟩), if_pos (show s.director.receiveList.length < Config.receivePlaces from room),
      setStage_eq sweep]

end WordReads

theorem exec_word0ReadDone {s : State} {w : Sweep} {a : Word}
    (h : SweeperAccess s w { role := .word0, addr := a, op := .read 1 }) :
    exec .word0ReadDone s = .next ((freed s).word0Read (Memory.readBytes s.memory a 4)) := by
  have ran := completeAs_read h
  rw [Nat.mul_one] at ran
  exact congrArg Host.Outcome.next ran

theorem exec_word1ReadDone {s : State} {w : Sweep} {a : Word}
    (h : SweeperAccess s w { role := .word1, addr := a, op := .read 1 }) :
    exec .word1ReadDone s = .next ((freed s).word1Read (Memory.readBytes s.memory a 4)) :=
  congrArg Host.Outcome.next (completeAs_read h)

/-- Settles O16: the cases of the word 0 read by held bit, side, state byte and cancel request; of the word 1 read by the
mask and the room. -/
theorem wordReadsDecided : Obligations.WordReadsDecided := by
  refine ⟨fun s w a h => ?_, fun s w a h => ?_⟩
  · have ran := exec_word0ReadDone h
    have sweep : (freed s).sweeper.sweep = some w := h.1
    rw [ran, ← byteAt_readBytes_one s.memory a 2, ← byteAt_readBytes_zero s.memory a 3]
    generalize Memory.readBytes s.memory a 4 = bs
    refine ⟨fun held => ⟨fun cancel => ?_, fun cancel side => ?_, fun cancel side => ?_⟩,
      fun held => ⟨fun side => ?_, fun side => ?_⟩⟩
    · rw [word0Read_left sweep held cancel]
    · rw [word0Read_sendCancel sweep held cancel side]
    · rw [word0Read_receiveCancel sweep held cancel side]
    · rw [word0Read_send sweep held side]
      obtain ⟨wrongSide, cancelled, goesOn, paused, left⟩ := sendWord0_cases sweep (bs := bs) w.index
      exact ⟨fun v => congrArg _ (wrongSide v), fun v c => congrArg _ (cancelled v c),
        fun v c st => congrArg _ (goesOn v c st), fun v c st => congrArg _ (paused v c st),
        fun one two => congrArg _ (left one two)⟩
    · rw [word0Read_receive sweep held side]
      obtain ⟨wrongSide, cancelled, goesOn, left⟩ := receiveWord0_cases sweep (bs := bs) w.index
      exact ⟨fun v => congrArg _ (wrongSide v), fun v c => congrArg _ (cancelled v c),
        fun v c => congrArg _ (goesOn v c), fun one two => congrArg _ (left one two)⟩
  · have ran := exec_word1ReadDone h
    have sweep : (freed s).sweeper.sweep = some w := h.1
    rw [ran, ← byteAt_readBytes_zero s.memory a 3]
    generalize Memory.readBytes s.memory a 4 = bs
    obtain ⟨rejected, left, goesOn⟩ := word1Read_cases sweep (bs := bs)
    exact ⟨fun bad => congrArg _ (rejected bad), fun nz small full => congrArg _ (left nz small full),
      fun nz small room => congrArg _ (goesOn nz small room)⟩

/-! ### The whole-envelope read (R73) -/

theorem exec_envelopeReadDone {s : State} {w : Sweep} {a : Word}
    (h : SweeperAccess s w { role := .envelope, addr := a, op := .read 16 }) :
    exec .envelopeReadDone s = .next ((freed s).envelopeRead (Memory.readBytes s.memory a 64)) :=
  congrArg Host.Outcome.next (completeAs_read h)

section EnvelopeRead

variable {s : State} {w : Sweep} {bs : List Byte} (sweep : s.sweeper.sweep = some w)
include sweep

theorem envelopeRead_unposted (h : (byteAt bs 0).toNat ≠ 1) : s.envelopeRead bs = s.indexHandled := by
  unfold State.envelopeRead
  rw [sweep]
  exact if_pos (byte_ne_of_toNat (y := posted) h)

theorem envelopeRead_cancelled (h : (byteAt bs 0).toNat = 1) (cancel : (byteAt bs 1).getLsbD 0 = true) :
    s.envelopeRead bs = (cancelling s w.index).indexHandled := by
  unfold State.envelopeRead
  rw [sweep]
  dsimp only
  rw [if_neg (fun k => k (byte_eq_of_toNat (y := posted) h)), if_pos (show cancelRequested bs = true from cancel)]
  rfl

theorem envelopeRead_paused (h : (byteAt bs 0).toNat = 1) (cancel : (byteAt bs 1).getLsbD 0 = false)
    (st : s.session.state = .paused) : s.envelopeRead bs = s.indexHandled := by
  unfold State.envelopeRead
  rw [sweep]
  dsimp only
  rw [if_neg (fun k => k (byte_eq_of_toNat (y := posted) h)), if_neg (not_cancelRequested cancel), if_pos st]

/-- An envelope that is POSTED still, without a cancel and outside PAUSED, is tested. -/
theorem envelopeRead_rejected (h : (byteAt bs 0).toNat = 1) (cancel : (byteAt bs 1).getLsbD 0 = false)
    (st : s.session.state ≠ .paused) {r : ResultCode} (failed : s.failedTest bs = some r) :
    s.envelopeRead bs = (rejecting s w.index r).indexHandled := by
  unfold State.envelopeRead
  rw [sweep]
  dsimp only
  rw [if_neg (fun k => k (byte_eq_of_toNat (y := posted) h)), if_neg (not_cancelRequested cancel),
    if_neg st, failed]
  rfl

theorem envelopeRead_passed (h : (byteAt bs 0).toNat = 1) (cancel : (byteAt bs 1).getLsbD 0 = false)
    (st : s.session.state ≠ .paused) (passed : s.failedTest bs = none) :
    s.envelopeRead bs = s.roomTest w.index (sendFields bs) := by
  unfold State.envelopeRead
  rw [sweep]
  dsimp only
  rw [if_neg (fun k => k (byte_eq_of_toNat (y := posted) h)), if_neg (not_cancelRequested cancel),
    if_neg st, passed]

/-- A place is reserved, and the claim is decided (R74; log 35). -/
theorem reserve_eq (t : Trunk) (p : Place) (c : Claim) : s.reserve t p c =
    { s with
      sched := { s.sched with offDone := s.sched.offDone.set t false }
      sweeper := { s.sweeper with reservation := some p, sweep := some { w with stage := .claim c } } } := by
  unfold State.reserve
  rw [setStage_eq (w := w)]
  · rfl
  · exact sweep

end EnvelopeRead

theorem trunkIsOff_iff (s : State) (t : Trunk) :
    s.trunkIsOff t = true ↔ (s.engine t).mode = .off ∨ (s.engine t).pendingOff = true := by
  simp [State.trunkIsOff]

/-- Settles O17: the first test that fails is the reason; before the tests stand the state byte, the cancel and PAUSED. -/
theorem envelopeTests : Obligations.EnvelopeTests := by
  intro s w a h bs e t done
  have ran : done = .next ((freed s).envelopeRead bs) := exec_envelopeReadDone h
  have sweep : (freed s).sweeper.sweep = some w := h.1
  rw [ran]
  refine ⟨fun v => ?_, fun v c => ?_, fun v c st => ?_, fun v c st => ?_⟩
  · rw [envelopeRead_unposted sweep v]
  · rw [envelopeRead_cancelled sweep v c]
  · rw [envelopeRead_paused sweep v c st]
  · have rejected : ∀ {r : ResultCode}, (freed s).failedTest bs = some r →
        Host.Outcome.next ((freed s).envelopeRead bs) = (.next (rejecting (freed s) w.index r).indexHandled
          : Host.Outcome State Fault Refusal) := fun failed => by rw [envelopeRead_rejected sweep v c st failed]
    refine ⟨fun check => rejected ?_, fun check valid => rejected ?_, fun check valid self => rejected ?_,
      fun check valid self off => rejected ?_⟩ <;> unfold State.failedTest <;> dsimp only
    · rw [if_pos check]
    · rw [if_neg (fun k => k check), if_pos (by simp [show (sendFields bs).valid = false from valid])]
    · rw [if_neg (fun k => k check), if_neg (by simp [show (sendFields bs).valid = true from valid])]
      exact if_pos self
    · rw [if_neg (fun k => k check), if_neg (by simp [show (sendFields bs).valid = true from valid])]
      rw [if_neg (show ¬ (sendFields bs).dest = ((freed s).director.listen.get (sendFields bs).trunkNo).own from self)]
      exact if_pos ((trunkIsOff_iff (freed s) _).2 off)

theorem failedTest_none {s : State} {bs : List Byte} (check : checkByte bs = byteAt bs 11)
    (valid : (sendFields bs).valid = true)
    (self : (sendFields bs).dest ≠ (s.director.listen.get (sendFields bs).trunkNo).own)
    (mode : (s.engine (sendFields bs).trunkNo).mode ≠ .off)
    (pending : (s.engine (sendFields bs).trunkNo).pendingOff = false) : s.failedTest bs = none := by
  unfold State.failedTest
  dsimp only
  rw [if_neg (fun k => k check), if_neg (by simp [valid]), if_neg self, if_neg]
  rw [trunkIsOff_iff]
  simp [mode, pending]

theorem repeatsTaken_unreserved {s : State} (h : s.sweeper.reservation = none) :
    s.repeatsTaken = s.sched.repeats.length := by
  simp [State.repeatsTaken, h]

theorem placesTaken_unreserved {s : State} (h : s.sweeper.reservation = none) (t : Trunk) :
    s.placesTaken t = (s.list t).length := by
  simp [State.placesTaken, h]

/-- Settles O18: with nothing reserved the places taken are the entries, and a claim is decided exactly where one is left. -/
theorem envelopeRoom : Obligations.EnvelopeRoom := by
  intro s w a h bs e t done v c st check valid self mode pending free
  have sweep : (freed s).sweeper.sweep = some w := h.1
  have passed : (freed s).failedTest bs = none := failedTest_none check valid self mode pending
  have ran : done = .next ((freed s).roomTest w.index e) := by
    rw [← envelopeRead_passed sweep v c st passed]
    exact exec_envelopeReadDone h
  have repeats : (freed s).repeatsTaken = s.sched.repeats.length := repeatsTaken_unreserved free
  have places : (freed s).placesTaken t = (s.list t).length := placesTaken_unreserved free t
  rw [ran]
  unfold State.roomTest
  refine ⟨fun rep => ?_, fun rep => ?_⟩
  · rw [if_pos rep, repeats]
    refine ⟨fun full => ?_, fun room => ?_⟩
    · rw [if_neg (show ¬ s.sched.repeats.length < Config.repeatPlaces from Nat.not_lt.2 full)]
      rfl
    · rw [if_pos (show s.sched.repeats.length < Config.repeatPlaces from room), reserve_eq sweep]
      rfl
  · rw [if_neg (by simp [rep])]
    unfold State.hasPlace
    rw [places]
    refine ⟨fun full => ?_, fun room => ?_⟩
    · rw [if_neg (show ¬ decide ((s.list t).length < Config.listPlaces) = true from
        fun k => absurd (of_decide_eq_true k) (Nat.not_lt.2 full))]
    · rw [if_pos (decide_eq_true (show (s.list t).length < Config.listPlaces from room)), reserve_eq sweep]
      rfl

/-! ### A receive claim (R75) -/

theorem completeAs_claim {s : State} {w : Sweep} {addr : Word}
    (h : SweeperAccess s w { role := .claim, addr := addr, op := .byteWrite [3#8] }) :
    s.completeAs .claim = ({ freed s with memory := Memory.write s.memory addr.toNat 3#8 } : State).claimWritten := by
  rw [completeAs_last (sweeperAccess_last h) rfl, landedLast_write (.inr rfl)]
  rfl

theorem claimWritten_receive {s : State} {w : Sweep} (h : s.sweeper.sweep = some w) {mask : Byte}
    (stage : w.stage = .claim (.receive mask)) : s.claimWritten =
      ({ s with
        sweeper := { s.sweeper with held := s.sweeper.held ||| (1#1024 <<< w.index) }
        director :=
          { s.director with receiveList := s.director.receiveList ++ [{ index := w.index, mask := mask }] } }
        : State).assignIfRunning.indexHandled := by
  unfold State.claimWritten
  rw [h]
  dsimp only
  rw [stage]
  rfl

/-- Settles O23: the entry joins the list, and the slot assignment follows by the session state. -/
theorem receiveClaimCompletes : Obligations.ReceiveClaimCompletes := by
  intro s w a mask h stage entry joined
  have ran : exec .claimWriteDone s = .next joined.assignIfRunning.indexHandled := by
    show Host.Outcome.next (s.completeAs .claim) = _
    rw [completeAs_claim h, claimWritten_receive (w := w)]
    · rfl
    · exact h.1
    · exact stage
  refine ⟨fun st owed => ?_, fun running paused => ?_⟩
  · rw [ran]
    unfold State.assignIfRunning
    rw [if_pos ⟨st, owed⟩]
  · rw [ran]
    unfold State.assignIfRunning
    rw [if_neg]
    rintro ⟨st | st, _⟩
    · exact running st
    · exact paused st

end Sys2Proof.Proofs

/-! SUPPORT. The fields of a send envelope and of the header (chapter 3): when they are valid, and what they give. -/

namespace Sys2Proof.Proofs

open Sys2Proof.Machine Sys2Proof.Laws Sys2Proof.Safety

/-! ### The send envelope -/

/-- A bit of a byte, by its number. -/
theorem getLsbD_iff_mod (x : Byte) (k : Nat) : x.getLsbD k = true ↔ x.toNat / 2 ^ k % 2 = 1 := by
  rw [BitVec.getLsbD, Nat.testBit_eq_decide_div_mod_eq, decide_eq_true_iff]

theorem replyWanted_iff (bs : List Byte) : (sendFields bs).replyWanted = true ↔ (byteAt bs 10).toNat % 2 = 1 := by
  have bit := getLsbD_iff_mod (byteAt bs 10) 0
  rwa [pow_zero, Nat.div_one] at bit

theorem repeats_iff (bs : List Byte) : (sendFields bs).repeats = true ↔ (byteAt bs 10).toNat / 2 % 2 = 1 := by
  exact getLsbD_iff_mod (byteAt bs 10) 1

theorem hasExpiry_iff (bs : List Byte) : (sendFields bs).hasExpiry = true ↔ (byteAt bs 10).toNat / 4 % 2 = 1 := by
  exact getLsbD_iff_mod (byteAt bs 10) 2

/-- When the fields are valid, field by field (R57). -/
theorem valid_iff (e : SendFields) : e.valid = true ↔
    e.trunk ≤ 3 ∧ e.cls ≤ 2 ∧ e.dest ≤ 63 ∧ e.channel ≤ 7 ∧ e.length ≤ 24 ∧ e.retries ≤ 15 ∧ e.options.toNat < 8
      ∧ ¬ (e.dest = 63 ∧ e.replyWanted = true)
      ∧ (e.repeats = true → 10 ≤ e.period ∧ e.period ≤ 60000)
      ∧ (e.hasExpiry = true → e.expiry ≠ 0) := by
  unfold SendFields.valid
  cases e.replyWanted <;> cases e.repeats <;> cases e.hasExpiry <;> simp [and_assoc]

/-- The exclusive-OR of bytes in a row, byte by byte; a byte that is not there counts as 0. -/
theorem foldl_xor_slice (bs : List Byte) (a n : Nat) (x : Byte) : ((bs.drop a).take n).foldl (fun x y => x ^^^ y) x =
    ((List.range n).map (fun k => a + k)).foldl (fun x k => x ^^^ byteAt bs k) x := by
  induction n generalizing x with
  | zero => rfl
  | succ n ih =>
    rw [List.range_succ, List.map_append, List.foldl_append, List.take_add_one, List.foldl_append, ih, List.getElem?_drop]
    cases h : bs[a + n]? with
    | none => simp [byteAt, List.getD, h]
    | some v => simp [byteAt, List.getD, h]

theorem classByte_ofCode {n : Nat} (h : n ≤ 2) : classByte (FrameClass.ofCode n) = BitVec.ofNat 8 n := by
  have : n = 0 ∨ n = 1 ∨ n = 2 := by omega
  rcases this with rfl | rfl | rfl <;> rfl

/-- The payload of a claim, byte by byte. -/
theorem payload_take (bs : List Byte) (full : bs.length = 64) {l : Nat} (h : l ≤ 24) :
    ((bs.drop 16).take 24).take l = (List.range l).map (fun k => byteAt bs (16 + k)) := by
  apply List.ext_getElem
  · simp; omega
  · intro k h1 _
    have hk : k < l := by simp at h1; omega
    simp [byteAt, List.getD, List.getElem?_eq_getElem (show 16 + k < bs.length by omega)]

/-- Settles O19: validity is a conjunction of bounds on the bytes; the check byte runs over two slices. -/
theorem sendFieldsValid : Obligations.SendFieldsValid := by
  intro bs b word
  have valid := valid_iff (sendFields bs)
  rw [replyWanted_iff, repeats_iff, hasExpiry_iff] at valid
  refine ⟨valid, ?_, rfl, repeats_iff bs, fun full ok => ?_⟩
  · unfold checkByte
    rw [List.foldl_append, List.foldl_append, foldl_xor_slice, foldl_xor_slice]
    rfl
  · obtain ⟨trunk, cls, _, _, length, _⟩ := valid.1 ok
    have trunk : b 4 ≤ 3 := trunk
    have cls : b 5 ≤ 2 := cls
    have trunkVal : (sendFields bs).trunkNo.val = b 4 := by
      show b 4 % 4 = b 4
      omega
    refine ⟨trunkVal, rfl, ?_, rfl, rfl, rfl, rfl, replyWanted_iff bs, rfl, ?_, payload_take bs full length⟩
    · show classByte (FrameClass.ofCode (b 5)) = byteAt bs 5
      rw [classByte_ofCode cls]
      exact BitVec.ofNat_toNat _ _ |>.trans (BitVec.setWidth_eq _)
    · show (if (sendFields bs).hasExpiry then some (word 14) else none) = _
      by_cases h : b 10 / 4 % 2 = 1
      · rw [if_pos ((hasExpiry_iff bs).2 h), if_pos h]
      · rw [if_neg (fun k => h ((hasExpiry_iff bs).1 k)), if_neg h]

/-! ### The header -/

/-- The fields of a trunk record at an offset, each with what makes it valid (R52). -/
def recordFields (b : Nat → Nat) (r : Nat) : List (Nat × Prop) :=
  let half := fun k : Nat => b k + 256 * b (k + 1)
  let group := fun own g : Nat => (g ≤ 62 ∨ g = 255) ∧ g ≠ own
  [(r, b r ≤ 2), (r + 1, 2 ≤ b (r + 1)), (r + 2, 2 * b (r + 2) < 5 * b (r + 1)),
    (r + 3, 5 ≤ b (r + 3) ∧ b (r + 3) ≤ 15), (r + 4, b (r + 4) ≤ 62), (r + 5, group (b (r + 4)) (b (r + 5))),
    (r + 6, group (b (r + 4)) (b (r + 6))), (r + 7, group (b (r + 4)) (b (r + 7))),
    (r + 8, group (b (r + 4)) (b (r + 8))), (r + 9, b (r + 9) < 8),
    (r + 10, 1 ≤ half (r + 10) ∧ half (r + 10) ≤ 1000)]

/-- The header's bytes from 0x008 on are these. -/
def Spells (h : HeaderBytes) (b : Nat → Nat) : Prop := ∀ o, 8 ≤ o → h.byte o = b o ∧ h.half o = b o + 256 * b (o + 1)

theorem groupByteValid_iff (own g : Nat) : groupByteValid own g = true ↔ (g ≤ 62 ∨ g = 255) ∧ g ≠ own := by
  simp [groupByteValid]

/-- The checks of a record pass one by one exactly when its fields are valid. -/
theorem checksFields_record {h : HeaderBytes} {b : Nat → Nat} (spells : Spells h b) (t : Trunk) :
    ChecksFields (recordChecks h t) (recordFields b (recordOffset t)) := by
  have byte : ∀ k, h.byte (recordOffset t + k) = b (recordOffset t + k) := fun k =>
    (spells _ (by unfold recordOffset; omega)).1
  have half := (spells (recordOffset t + 10) (by unfold recordOffset; omega)).2
  have first := byte 0
  unfold recordChecks recordFields
  simp only [byte, half, Nat.add_zero] at first ⊢
  rw [first]
  refine .cons ⟨rfl, decide_eq_true_iff⟩ (.cons ⟨rfl, decide_eq_true_iff⟩ (.cons ⟨rfl, decide_eq_true_iff⟩
    (.cons ⟨rfl, decide_eq_true_iff⟩ (.cons ⟨rfl, decide_eq_true_iff⟩ (.cons ⟨rfl, groupByteValid_iff _ _⟩
    (.cons ⟨rfl, groupByteValid_iff _ _⟩ (.cons ⟨rfl, groupByteValid_iff _ _⟩ (.cons ⟨rfl, groupByteValid_iff _ _⟩
    (.cons ⟨rfl, decide_eq_true_iff⟩ (.cons ⟨rfl, decide_eq_true_iff⟩ .nil))))))))))

/-- The fields that START and RELOAD both check, from 0x008 on (R51). -/
def commonFields (b : Nat → Nat) : List (Nat × Prop) :=
  let half := fun k : Nat => b k + 256 * b (k + 1)
  [(8, 1 ≤ half 8 ∧ half 8 ≤ 1000), (10, 1 ≤ half 10)] ++ recordFields b 0x20 ++ recordFields b 0x30
    ++ recordFields b 0x40 ++ recordFields b 0x50

theorem checksFields_common {h : HeaderBytes} {b : Nat → Nat} (spells : Spells h b) :
    ChecksFields (commonChecks h) (commonFields b) := by
  have h8 := (spells 8 (by omega)).2
  have h10 := (spells 10 (by omega)).2
  refine checksFields_append (checksFields_append (checksFields_append (checksFields_append ?_
    (checksFields_record spells 0)) (checksFields_record spells 1)) (checksFields_record spells 2))
    (checksFields_record spells 3)
  rw [h8, h10]
  exact .cons ⟨rfl, decide_eq_true_iff⟩ (.cons ⟨rfl, decide_eq_true_iff⟩ .nil)

/-- The offsets of the common checks, ascending. -/
def commonOffsets : List Nat :=
  [8, 10, 32, 33, 34, 35, 36, 37, 38, 39, 40, 41, 42, 48, 49, 50, 51, 52, 53, 54, 55, 56, 57, 58, 64, 65, 66, 67, 68, 69,
    70, 71, 72, 73, 74, 80, 81, 82, 83, 84, 85, 86, 87, 88, 89, 90]

theorem commonChecks_offsets (h : HeaderBytes) : (commonChecks h).map Prod.fst = commonOffsets := rfl

theorem commonChecks_ascending (h : HeaderBytes) : ((commonChecks h).map Prod.fst).Pairwise (fun x y => x < y) := by
  rw [commonChecks_offsets]
  decide

theorem startChecks_ascending (base : Word) (h : HeaderBytes) :
    ((startChecks base h).map Prod.fst).Pairwise (fun x y => x < y) := by
  have offsets : (startChecks base h).map Prod.fst = [0, 4, 6] ++ commonOffsets := rfl
  rw [offsets]
  decide

theorem byteAt_drop (bs : List Byte) (k n : Nat) : byteAt (bs.drop k) n = byteAt bs (k + n) := by
  simp [byteAt, List.getD, List.getElem?_drop]

theorem spells_start (bs : List Byte) : Spells { first := 0, bytes := bs } (fun k => (byteAt bs k).toNat) :=
  fun _ _ => ⟨rfl, rfl⟩

theorem spells_reload (bs : List Byte) : Spells { first := 8, bytes := bs.drop 8 } (fun k => (byteAt bs k).toNat) := by
  intro o ho
  unfold HeaderBytes.byte HeaderBytes.half halfAt
  dsimp only
  rw [byteAt_drop, byteAt_drop]
  rw [show 8 + (o - 8) = o by omega, show 8 + (o - 8 + 1) = o + 1 by omega]
  exact ⟨rfl, rfl⟩

/-- A record reads the same from either end of the header. -/
theorem trunkRecord_reload (bs : List Byte) (o : Trunk) :
    trunkRecord { first := 8, bytes := bs.drop 8 } o = trunkRecord { first := 0, bytes := bs } o := by
  have byte : ∀ k, ({ first := 8, bytes := bs.drop 8 } : HeaderBytes).byte (recordOffset o + k)
      = ({ first := 0, bytes := bs } : HeaderBytes).byte (recordOffset o + k) := fun k =>
    (spells_reload bs _ (by unfold recordOffset; omega)).1
  have first : ({ first := 8, bytes := bs.drop 8 } : HeaderBytes).byte (recordOffset o)
      = ({ first := 0, bytes := bs } : HeaderBytes).byte (recordOffset o) := byte 0
  have half : ({ first := 8, bytes := bs.drop 8 } : HeaderBytes).half (recordOffset o + 10)
      = ({ first := 0, bytes := bs } : HeaderBytes).half (recordOffset o + 10) :=
    (spells_reload bs _ (by unfold recordOffset; omega)).2
  have flags : byteAt (bs.drop 8) (recordOffset o + 9 - 8) = byteAt bs (recordOffset o + 9 - 0) := by
    rw [byteAt_drop]
    congr 1
    unfold recordOffset
    omega
  unfold trunkRecord
  simp only [byte, first, half, flags]

/-- Settles O33: check by check the header's bytes are held to the field's bounds; the offsets ascend. -/
theorem headerChecks : Obligations.HeaderChecks := by
  intro base bs b half group record shared first start reload
  have common : ∀ h : HeaderBytes, Spells h b → ChecksFields (commonChecks h) shared := fun h k => checksFields_common k
  refine ⟨answersFirstBad ?_ (startChecks_ascending base start), ?_, trunkRecord_reload bs, fun o => ?_⟩
  · refine checksFields_append ?_ (common start (spells_start bs))
    exact .cons ⟨rfl, beq_iff_eq⟩ (.cons ⟨rfl, decide_eq_true_iff⟩ (.cons ⟨rfl, decide_eq_true_iff⟩ .nil))
  · exact answersFirstBad (common reload (spells_reload bs)) (commonChecks_ascending reload)
  · intro r v slot
    have mode : v.mode = Mode.ofByte (b r) := rfl
    refine ⟨fun h => ?_, fun h => ?_, fun h => ?_, rfl, rfl, rfl, rfl, rfl, rfl, rfl⟩ <;> rw [mode, h] <;> rfl

end Sys2Proof.Proofs

/-! SUPPORT. START, RELOAD refused, and the ends of SETTLING, RESUME and STOP (chapters 9 and 10). -/

namespace Sys2Proof.Proofs

open Sys2Proof.Machine Sys2Proof.Laws Sys2Proof.Safety

/-! ### The header reads -/

/-- The state in which a unit has left the header writer and the port, and the memory is `m` (R148). -/
def headerLeft (s : State) (m : Memory) : State :=
  { s with memory := m, port := { s.port with unit := none }, header := s.header.tail }

/-- The START reads return: the unit leaves the header writer, and the header is judged (R156). -/
theorem exec_startReadsDone {s : State} {u : HeaderUnit} {a : Access} {d : List Byte} (role : a.role = .startReads)
    (op : a.op = .read 8) (last : LastAccess s (.header u) a d) :
    exec .startReadsDone s = .next ((headerLeft s s.memory).startRead (d ++ Memory.readBytes s.memory a.addr 32)) := by
  have ran := completeAs_last last role
  rw [landedLast_read op, readData_read op] at ran
  exact congrArg Host.Outcome.next ran

/-- The RELOAD reads return: the unit leaves the header writer, and the header is judged (R160). -/
theorem exec_reloadReadsDone {s : State} {u : HeaderUnit} {a : Access} {d : List Byte} (role : a.role = .reloadReads)
    (op : a.op = .read 6) (last : LastAccess s (.header u) a d) :
    exec .reloadReadsDone s = .next ((headerLeft s s.memory).reloadRead (d ++ Memory.readBytes s.memory a.addr 24)) := by
  have ran := completeAs_last last role
  rw [landedLast_read op, readData_read op] at ran
  exact congrArg Host.Outcome.next ran

theorem startRead_refused {s : State} {bs : List Byte} {o : Nat}
    (bad : firstBad (startChecks s.session.base { first := 0, bytes := bs }) = some o) :
    s.startRead bs = s.areaInvalid .start o := by
  unfold State.startRead startHeader
  rw [bad]

theorem startRead_passed {s : State} {bs : List Byte}
    (good : firstBad (startChecks s.session.base { first := 0, bytes := bs }) = none) :
    s.startRead bs = s.startFirstPart { first := 0, bytes := bs } := by
  unfold State.startRead startHeader
  rw [good]

theorem reloadRead_refused {s : State} {bs : List Byte} {o : Nat}
    (bad : firstBad (commonChecks { first := 8, bytes := bs }) = some o) : s.reloadRead bs = s.areaInvalid .reload o := by
  unfold State.reloadRead reloadHeader
  rw [bad]

/-- Settles O32: the refusal sets the offset, the read-back and the cause, and ends the command. -/
theorem headerRefused : Obligations.HeaderRefused := by
  intro s a d o u refused
  refine ⟨fun role op last bad => ?_, fun role op last bad => ?_⟩
  · rw [exec_startReadsDone role op last, startRead_refused]
    · rfl
    · exact bad
  · rw [exec_reloadReadsDone role op last, reloadRead_refused bad]
    rfl

/-! ### START (R157) -/

theorem each_get {α : Type} (h : HeaderBytes) (f : TrunkRecord → α) (o : Trunk) :
    ((settings h).each f).get o = f (trunkRecord h o) := by
  unfold Settings.each settings
  rw [get_of]
  dsimp only
  rw [get_of]

theorem startFirstPart_engine (s : State) (h : HeaderBytes) (o : Trunk) :
    (s.startFirstPart h).engine o = (s.engine o).loadTiming (trunkRecord h o).timing := by
  have engines : (s.startFirstPart h).engines
      = Four.of (fun t => (s.engine t).loadTiming ((settings h).records.get t).timing) := rfl
  rw [State.engine, engines, get_of]
  unfold settings
  dsimp only
  rw [get_of]

theorem startFirstPart_session (s : State) (h : HeaderBytes) : (s.startFirstPart h).session =
    { s.session with
      n := halfAt h.bytes (0x004 - h.first), f := halfAt h.bytes (0x006 - h.first), faultKind := .none
      number := s.session.number + 1, windowLength := halfAt h.bytes (0x00A - h.first)
      startModes := Four.of (fun o => (trunkRecord h o).mode) } := rfl

theorem startFirstPart_sweeper (s : State) (h : HeaderBytes) : (s.startFirstPart h).sweeper =
    { Sweeper.reset with period := halfAt h.bytes (0x008 - h.first) } := rfl

theorem startFirstPart_held (s : State) (h : HeaderBytes) : (s.startFirstPart h).sweeper.held = 0#1024 := by
  rw [startFirstPart_sweeper]
  unfold Sweeper.reset
  rfl

theorem startFirstPart_sched (s : State) (h : HeaderBytes) : (s.startFirstPart h).sched =
    { Scheduler.reset with
      windowMode := (settings h).each TrunkRecord.windowMode, backoff := (settings h).each TrunkRecord.backoff } := rfl

theorem startFirstPart_director (s : State) (h : HeaderBytes) :
    (s.startFirstPart h).director = { Director.reset with listen := (settings h).each TrunkRecord.listen } := rfl

theorem startFirstPart_wakeEnable (s : State) (h : HeaderBytes) :
    (s.startFirstPart h).standby.wakeEnable = (settings h).each TrunkRecord.wakeEnable := rfl

/-- The settings of a trunk's record reach every block (R157). -/
theorem startFirstPart_trunk (s : State) (h : HeaderBytes) (o : Trunk) :
    let t := s.startFirstPart h
    t.sched.windowMode.get o = (trunkRecord h o).windowMode ∧ t.sched.backoff.get o = (trunkRecord h o).backoff
      ∧ t.sched.toggles.get o = 0#63 ∧ t.director.listen.get o = (trunkRecord h o).listen
      ∧ t.director.dups.get o = Vector.replicate 63 none ∧ (t.engine o).timing = (trunkRecord h o).timing
      ∧ (t.engine o).mode = (s.engine o).mode ∧ t.standby.wakeEnable.get o = (trunkRecord h o).wakeEnable := by
  intro t
  rw [startFirstPart_sched s h, startFirstPart_director s h, startFirstPart_wakeEnable s h, startFirstPart_engine s h o]
  exact ⟨each_get h TrunkRecord.windowMode o, each_get h TrunkRecord.backoff o, get_all 0#63 o,
    each_get h TrunkRecord.listen o, get_all (Vector.replicate 63 none) o, rfl, rfl, each_get h TrunkRecord.wakeEnable o⟩

theorem startFirstPart_results (s : State) (h : HeaderBytes) :
    ResultsAtReset { s.startFirstPart h with header := [] } := resultsAtReset_of_eq rfl rfl

/-- What the first part of START leaves alone, and the unit it asks for (R157). -/
theorem startFirstPart_rest (s : State) (h : HeaderBytes) :
    let t := s.startFirstPart h
    t.header = s.header ++ [.startUnit] ∧ t.regs = s.regs ∧ t.memory = s.memory ∧ t.port = s.port
      ∧ t.standby.wake = s.standby.wake := by
  simp [State.startFirstPart, State.askHeader]

/-- Settles O34: the first part writes each block once. -/
theorem startFirstPart : Obligations.StartFirstPart := by
  intro s a d u role op last bs h good
  have ran : exec .startReadsDone s = .next ((headerLeft s s.memory).startFirstPart h) := by
    rw [exec_startReadsDone role op last]
    exact congrArg Host.Outcome.next (startRead_passed good)
  exact ⟨_, ran, startFirstPart_session _ h, rfl, rfl, startFirstPart_held _ h, rfl, rfl, rfl, rfl, startFirstPart_trunk _ h, rfl,
    startFirstPart_results _ h, startFirstPart_rest (headerLeft s s.memory) h⟩

theorem startUnitWritten_engine (s : State) (o : Trunk) :
    s.startUnitWritten.engine o = (s.engine o).enterMode (s.session.startModes.get o) := by
  have engines : s.startUnitWritten.engines
      = Four.of (fun t => (s.engine t).enterMode (s.session.startModes.get t)) := rfl
  rw [State.engine, engines, get_of]

theorem enterMode_off (e : Engine) {m : Mode} (off : m = .off) : e.enterMode m = e := by
  rw [off]
  rfl

/-- An engine that enters a mode other than OFF is IDLE with its clocks at 0, its level and timing kept (R26). -/
theorem enterMode_on (e : Engine) (m : Mode) (on : m ≠ .off) :
    (e.enterMode m).mode = m ∧ (e.enterMode m).state = .idle ∧ (e.enterMode m).holdClock = 0
      ∧ (e.enterMode m).lowTime = 0 ∧ (e.enterMode m).candidate = false ∧ (e.enterMode m).level = e.level
      ∧ (e.enterMode m).timing = e.timing := by
  cases m with
  | off => exact absurd rfl on
  | listen => exact ⟨rfl, rfl, rfl, rfl, rfl, rfl, rfl⟩
  | active => exact ⟨rfl, rfl, rfl, rfl, rfl, rfl, rfl⟩

/-- Settles O35: the second part sets the clock, the session, the engines by their modes, and starts the sweep. -/
theorem startUnitCompletes : Obligations.StartUnitCompletes := by
  intro s u a bs role op last
  have ran : exec .startUnitDone s
      = .next (headerLeft s (Memory.writeBytes s.memory a.addr bs)).startUnitWritten := by
    have ran := completeAs_last last role
    rw [landedLast_write (.inl op)] at ran
    exact congrArg Host.Outcome.next ran
  refine ⟨_, ran, rfl, rfl, rfl, rfl, rfl, rfl, fun o => ?_, rfl, rfl, rfl, rfl⟩
  rw [startUnitWritten_engine]
  exact ⟨enterMode_off (s.engine o), enterMode_on (s.engine o) (s.session.startModes.get o)⟩

/-! ### The ends of SETTLING and of the resume processing -/

theorem settled_of {s : State} (st : s.session.state = .settling) (sweep : s.sweeper.sweep = none)
    (flight : ∀ t : Trunk, s.inFlight t = false) (queue : s.results.queue = [])
    (slots : ∀ q ∈ s.director.queue, q.slot = none) (header : s.header = []) (unit : s.port.unit = none) :
    s.settled = true := by
  simp [State.settled, State.sweeperBusy, State.noneInFlight, trunks, st, sweep, flight, queue, header, unit]
  exact slots

theorem enterStandby_eq (s : State) : s.enterStandby =
    { s.completeCheck with
      session := { s.completeCheck.session with state := .standby, inProgress := none }
      regs := doneRegs s.completeCheck 4#4 } := rfl

/-- Settles O38: each end has its moment, and the COMPLETE check is made before SETTLING ends. -/
theorem settlingAndResumeEnd : Obligations.SettlingAndResumeEnd := by
  refine ⟨fun s st sweep flight queue slots header unit => ?_, fun s st owed => ?_⟩
  · intro standby
    have ran : exec .settlingEnd s = .next s.enterStandby :=
      congrArg Host.Outcome.next (if_pos (settled_of st sweep flight queue slots header unit))
    rw [ran, enterStandby_eq]
    refine ⟨fun eq => ?_, fun ne => ?_⟩
    · rw [completeCheck_of_eq eq]
    · rw [completeCheck_of_ne ne]
      rfl
  · have resumed : s.resultsResumed = true := by simp [State.resultsResumed, st, owed]
    exact congrArg Host.Outcome.next (if_pos resumed)

/-! ### The end of STOPPING (R162) -/

theorem finalAsked_of_none {s : State} (h : ∀ x ∈ s.header, ∀ time count, x ≠ .finalUnit time count) :
    s.finalAsked = false := by
  unfold State.finalAsked
  rw [List.any_eq_false]
  intro x hx
  cases x with
  | finalUnit time count => exact absurd rfl (h _ hx time count)
  | startReads | reloadReads | startUnit | sweepEnd _ _ => simp

theorem stopped_of {s : State} (st : s.session.state = .stopping) (stopDone : ∀ t : Trunk, s.sched.stopDone.get t = true)
    (repeats : s.sched.repeats = []) (sweep : s.sweeper.sweep = none) (queue : s.results.queue = [])
    (frames : s.director.queue = []) (receive : s.director.receiveList = []) (final : s.finalAsked = false) :
    s.stopped = true := by
  simp [State.stopped, State.sweeperBusy, trunks, st, stopDone, repeats, sweep, queue, frames, receive, final]

/-- What the end of STOP does after the COMPLETE check: every engine OFF, the session UNSET, STOP done (R48, R162). -/
def turnedOff (s : State) : State :=
  ((s.setEngines (Four.of (fun t => (s.engine t).stopOff))).enterSession .unset).finishCommand .stop

theorem finishStop_eq (s : State) : s.finishStop = turnedOff s.completeCheck := rfl

theorem turnedOff_engine (s : State) (o : Trunk) : (turnedOff s).engine o = (s.engine o).stopOff := by
  have engines : (turnedOff s).engines = Four.of (fun t => (s.engine t).stopOff) := rfl
  rw [State.engine, engines, get_of]

theorem turnedOff_off (s : State) (o : Trunk) :
    let e := (turnedOff s).engine o
    e.state = .off ∧ e.mode = .off ∧ e.drives = false ∧ e.armed = none ∧ e.attempt = none ∧ e.pendingTiming = none
      ∧ e.timing = (s.engine o).timing := by
  intro e
  have he : e = (s.engine o).stopOff := turnedOff_engine s o
  rw [he]
  exact ⟨rfl, rfl, rfl, rfl, rfl, rfl, rfl⟩

/-- Settles O39: the final unit carries the moment; its completion makes the COMPLETE check and turns every engine off. -/
theorem stopEnds : Obligations.StopEnds := by
  refine ⟨fun s st stopDone repeats sweep queue frames receive final => ?_, fun s u a bs role op last => ?_⟩
  · exact congrArg Host.Outcome.next
      (if_pos (stopped_of st stopDone repeats sweep queue frames receive (finalAsked_of_none final)))
  · have ran : exec .stopFinalUnitDone s
        = .next (headerLeft s (Memory.writeBytes s.memory a.addr bs)).finishStop := by
      have ran := completeAs_last last role
      rw [landedLast_write (.inl op)] at ran
      exact congrArg Host.Outcome.next ran
    refine ⟨_, ran, ?_⟩
    rw [finishStop_eq]
    by_cases eq : s.results.written = s.results.reported
    · have check := completeCheck_of_eq (s := headerLeft s (Memory.writeBytes s.memory a.addr bs)) eq
      rw [check]
      exact ⟨rfl, turnedOff_off _, rfl, fun _ => rfl, fun ne => absurd eq ne, eq.symm, rfl, rfl, rfl, rfl, rfl, rfl, rfl⟩
    · have check := completeCheck_of_ne (s := headerLeft s (Memory.writeBytes s.memory a.addr bs)) eq
      rw [check]
      exact ⟨rfl, turnedOff_off _, rfl, fun h => absurd h eq, fun _ => rfl, rfl, rfl, rfl, rfl, rfl, rfl, rfl, rfl⟩

end Sys2Proof.Proofs

/-! SUPPORT. What a selection makes of a trunk (R87, R88), how a foreign frame ends (R27, R37), and how an edge and the
passing of time are judged (chapters 1 and 2). -/

namespace Sys2Proof.Proofs

open Sys2Proof.Machine Sys2Proof.Laws Sys2Proof.Safety

/-! ### Selection -/

/-- Eligibility looks at the session, the window mode and the timing (R87). -/
theorem SendsOn.eligible {t : Trunk} {s v : State} (h : SendsOn t s v) : v.eligible t = s.eligible t := by
  have timing : (v.engine t).timing = (s.engine t).timing := by rw [h.engine.1]
  funext x
  unfold State.eligible State.fitsWindow State.worstCaseMicros Engine.unitMicros
  rw [h.session, h.windowMode, timing]

theorem eligible_disarmed (s : State) (t : Trunk) (x : Entry) : s.eligible t x.disarmed = s.eligible t x := by
  unfold Entry.disarmed
  split
  · simp [State.eligible, *]
  · rfl

theorem eligible_armed {s : State} {t : Trunk} {x : Entry} (h : s.eligible t x = true) :
    s.eligible t { x with condition := .armed } = true := by
  simp only [State.eligible, Bool.and_eq_true] at h ⊢
  exact ⟨⟨by simp, h.1.2⟩, h.2⟩

theorem disarmed_index (x : Entry) : x.disarmed.index = x.index := by
  unfold Entry.disarmed
  split <;> rfl

/-- An entry of the list as an arming of index `i` leaves it (R88). -/
def rearmedEntry (i : Nat) (x : Entry) : Entry :=
  if x.disarmed.index = i then { x.disarmed with condition := .armed } else x.disarmed

theorem rearmedEntry_index (i : Nat) (x : Entry) : (rearmedEntry i x).index = x.index := by
  unfold rearmedEntry
  split
  · exact disarmed_index x
  · exact disarmed_index x

theorem armEntry_list (s : State) (t : Trunk) (e : Entry) :
    (s.armEntry t e).list t = (s.list t).map (rearmedEntry e.index) := by
  unfold State.armEntry mapIndex
  rw [list_setList_same, List.map_map]
  rfl

theorem armEntry_engine (s : State) (t : Trunk) (e : Entry) :
    (s.armEntry t e).engine t = (s.engine t).arm e.index e.copy.cls e.retry := by
  unfold State.armEntry
  rw [engine_setList, engine_setEngine_same]

theorem withdraw_of_none {s : State} {t : Trunk} (h : (s.engine t).armed = none) : s.withdraw t = s := by
  unfold State.withdraw
  rw [h]

theorem withdraw_of_some {s : State} {t : Trunk} {a : Armed} (h : (s.engine t).armed = some a) :
    s.withdraw t = (s.setEngine t (s.engine t).withdraw).setList t ((s.list t).map Entry.disarmed) := by
  unfold State.withdraw
  rw [h]

theorem withdraw_armed (s : State) (t : Trunk) : ((s.withdraw t).engine t).armed = none := by
  cases h : (s.engine t).armed with
  | none => rw [withdraw_of_none h, h]
  | some a =>
    rw [withdraw_of_some h, engine_setList, engine_setEngine_same]
    rfl

/-- No entry of the list is eligible after the withdrawal where none was before. -/
theorem withdraw_find {s : State} {t : Trunk} (h : (s.list t).find? (s.eligible t) = none) :
    ((s.withdraw t).list t).find? (s.eligible t) = none := by
  cases ha : (s.engine t).armed with
  | none => rwa [withdraw_of_none ha]
  | some a =>
    rw [withdraw_of_some ha, list_setList_same, List.find?_map]
    have same : s.eligible t ∘ Entry.disarmed = s.eligible t := funext (eligible_disarmed s t)
    rw [same, h]
    rfl

/-- The first eligible entry after an arming has the index of the one before. -/
theorem find_rearmedEntry {s : State} {t : Trunk} {e : Entry} {l : List Entry}
    (h : l.find? (s.eligible t) = some e) :
    ((l.map (rearmedEntry e.index)).find? (s.eligible t)).map Entry.index = some e.index := by
  have other : ∀ x : Entry, x.index ≠ e.index → s.eligible t (rearmedEntry e.index x) = s.eligible t x := by
    intro x hx
    unfold rearmedEntry
    rw [if_neg (by rwa [disarmed_index]), eligible_disarmed]
  have own : s.eligible t (rearmedEntry e.index e) = true := by
    unfold rearmedEntry
    rw [if_pos (disarmed_index e)]
    exact eligible_armed ((eligible_disarmed s t e).trans (List.find?_some h))
  induction l with
  | nil => cases h
  | cons x xs ih =>
    rw [List.map_cons, List.find?_cons]
    by_cases hg : s.eligible t (rearmedEntry e.index x) = true
    · rw [hg]
      by_cases hx : x.index = e.index
      · exact congrArg some ((rearmedEntry_index _ x).trans hx)
      · rw [List.find?_cons, ← other x hx, hg] at h
        cases h
        exact absurd rfl hx
    · rw [Bool.eq_false_iff.2 hg]
      refine ih ?_
      rw [List.find?_cons] at h
      cases hp : s.eligible t x with
      | false => rwa [hp] at h
      | true =>
        rw [hp] at h
        cases h
        exact absurd own hg

theorem select_frozen {s : State} {t : Trunk} (h : ¬ (s.schedulerLive = true ∧ (s.engine t).takesArming = true)) :
    s.select t = s := by
  unfold State.select
  rw [if_neg (by rwa [Bool.and_eq_true])]

/-- The three ways of a selection (R88). -/
theorem select_cases {s : State} {t : Trunk} (live : s.schedulerLive = true) (takes : (s.engine t).takesArming = true) :
    ((s.list t).find? (s.eligible t) = none ∧ s.select t = s.withdraw t)
      ∨ ∃ e, (s.list t).find? (s.eligible t) = some e
          ∧ ((s.engine t).armed.map Armed.index = some e.index ∧ s.select t = s
            ∨ (s.engine t).armed.map Armed.index ≠ some e.index ∧ s.select t = s.armEntry t e) := by
  unfold State.select
  rw [live, takes, Bool.and_self, if_pos rfl]
  cases hf : (s.list t).find? (s.eligible t) with
  | none => exact .inl ⟨rfl, rfl⟩
  | some e =>
    refine .inr ⟨e, rfl, ?_⟩
    by_cases ha : (s.engine t).armed.map Armed.index = some e.index
    · exact .inl ⟨ha, if_pos ha⟩
    · exact .inr ⟨ha, if_neg ha⟩

/-- After a selection the first eligible entry is the armed one (R88). -/
theorem select_selected {s : State} {t : Trunk} (live : s.schedulerLive = true)
    (takes : (s.engine t).takesArming = true) : Selected (s.select t) t := by
  unfold Selected
  rw [(sendsOn_select s t).eligible]
  rcases select_cases live takes with ⟨hf, h⟩ | ⟨e, hf, ⟨ha, h⟩ | ⟨_, h⟩⟩
  · rw [h, withdraw_armed, withdraw_find hf]
    rfl
  · rw [h, ha, hf]
    rfl
  · rw [h, armEntry_engine, armEntry_list, find_rearmedEntry hf]
    rfl

/-- What a selection may make of an entry's condition: an armed one may wait again, and one with the index of an eligible
entry may be armed (R88). -/
def Reconditioned (s : State) (t : Trunk) (x y : Entry) : Prop :=
  ∃ c, y = { x with condition := c }
    ∧ (c = x.condition ∨ (x.condition = .armed ∧ c = .waiting)
      ∨ (c = .armed ∧ ∃ e ∈ s.list t, s.eligible t e = true ∧ e.index = x.index))

theorem reconditioned_disarmed (s : State) (t : Trunk) (x : Entry) : Reconditioned s t x x.disarmed := by
  unfold Entry.disarmed
  split
  · exact ⟨_, rfl, .inr (.inl ⟨‹_›, rfl⟩)⟩
  · exact ⟨x.condition, rfl, .inl rfl⟩

/-- An entry that a selection leaves: only its condition may differ. -/
theorem select_entries (s : State) (t : Trunk) :
    ∃ f : Entry → Entry, (s.select t).list t = (s.list t).map f ∧ ∀ x, Reconditioned s t x (f x) := by
  have same : ∃ f : Entry → Entry, s.list t = (s.list t).map f ∧ ∀ x, Reconditioned s t x (f x) :=
    ⟨id, (List.map_id _).symm, fun x => ⟨x.condition, rfl, .inl rfl⟩⟩
  by_cases h : s.schedulerLive = true ∧ (s.engine t).takesArming = true
  · rcases select_cases h.1 h.2 with ⟨_, h⟩ | ⟨e, found, ⟨_, h⟩ | ⟨_, h⟩⟩
    · cases ha : (s.engine t).armed with
      | none => rwa [h, withdraw_of_none ha]
      | some a =>
        exact ⟨Entry.disarmed, by rw [h, withdraw_of_some ha, list_setList_same], reconditioned_disarmed s t⟩
    · rwa [h]
    · refine ⟨rearmedEntry e.index, by rw [h, armEntry_list], fun x => ?_⟩
      unfold rearmedEntry
      split
      · rename_i index
        rw [disarmed_index] at index
        refine ⟨.armed, ?_, .inr (.inr ⟨rfl, e, List.mem_of_find?_eq_some found, List.find?_some found, index.symm⟩)⟩
        obtain ⟨c, hc, _⟩ := reconditioned_disarmed s t x
        rw [hc]
      · exact reconditioned_disarmed s t x
  · rwa [select_frozen h]

theorem select_indices (s : State) (t : Trunk) :
    ((s.select t).list t).map Entry.index = (s.list t).map Entry.index := by
  obtain ⟨f, hl, hf⟩ := select_entries s t
  rw [hl, List.map_map]
  refine List.map_congr_left fun x _ => ?_
  obtain ⟨c, hc, _⟩ := hf x
  rw [Function.comp_apply, hc]

/-- A selection leaves the results and the scheduler's part but the lists. -/
theorem select_rest (s : State) (t : Trunk) :
    (s.select t).results = s.results ∧ (s.select t).sched = { s.sched with lists := (s.select t).sched.lists } := by
  unfold State.select State.withdraw
  repeat' split
  all_goals exact ⟨rfl, rfl⟩

/-- What a selection may change. -/
theorem select_eq (s : State) (t : Trunk) : s.select t =
    { s with
      engines := (s.select t).engines, sched := { s.sched with lists := (s.select t).sched.lists } } := by
  unfold State.select State.withdraw
  repeat' split
  all_goals rfl

/-- At rest, an engine is in HOLDING exactly with an entry armed, and a selection keeps it so (R24, R88). -/
theorem select_restState {s : State} {t : Trunk} (h : (s.engine t).state = (s.engine t).restState) :
    ((s.select t).engine t).state = ((s.select t).engine t).restState := by
  by_cases on : s.schedulerLive = true ∧ (s.engine t).takesArming = true
  · rcases select_cases on.1 on.2 with ⟨_, k⟩ | ⟨e, _, ⟨_, k⟩ | ⟨_, k⟩⟩
    · cases ha : (s.engine t).armed with
      | none => rwa [k, withdraw_of_none ha]
      | some a =>
        rw [k, withdraw_of_some ha, engine_setList, engine_setEngine_same]
        simp [Engine.withdraw, Engine.restState, h, ha]
    · rwa [k]
    · rw [k, armEntry_engine]
      cases ha : (s.engine t).armed <;> simp [Engine.arm, Engine.restState, h, ha]
  · rwa [select_frozen on]

/-! ### The end of a foreign frame -/

/-- Two engines agree in what outlasts a frame (R23, R27). -/
def SameStanding (e g : Engine) : Prop :=
  g.armed = e.armed ∧ g.attempt = e.attempt ∧ g.timing = e.timing ∧ g.mode = e.mode ∧ g.pendingOff = e.pendingOff

/-- A frame ends on a trunk's engine, and a selection follows (R27, R37, R88). -/
theorem frameOver_select {s r : State} {t : Trunk} {g : Engine} (elsewhere : SameElsewhere s r)
    (sched : r.sched = s.sched) (others : ∀ o, o ≠ t → r.engine o = s.engine o) (ended : r.engine t = g.endFrame)
    (standing : SameStanding (s.engine t) g) : FrameOver s (r.select t) t := by
  obtain ⟨armed, attempt, timing, mode, pendingOff⟩ := standing
  have sel := sendsOn_select r t
  have live : r.schedulerLive = s.schedulerLive := by rw [State.schedulerLive, elsewhere.2.1]; rfl
  have takes : (r.engine t).takesArming = (s.engine t).takesArming := by
    rw [ended, Engine.takesArming, Engine.takesArming, ← mode, ← pendingOff]
    rfl
  have lists : ∀ o, r.list o = s.list o := fun o => by rw [State.list, sched]; rfl
  have engine := sel.engine.1
  rw [ended] at engine
  refine ⟨select_restState (by rw [ended]; rfl), ?_, ?_, ?_, ?_, ?_, ?_, ?_, ?_, fun l k => ?_, fun off => ?_, ?_, ?_, ?_,
    same_trans elsewhere sel.elsewhere.1⟩
  · rw [engine]
    rfl
  · rw [engine]
    rfl
  · rw [engine]
    rfl
  · rw [engine]
    rfl
  · rw [engine]
    rfl
  · rw [engine, ← attempt]
    rfl
  · rw [engine, ← timing]
    rfl
  · rw [engine, ← mode]
    rfl
  · exact select_selected (live.trans l) (takes.trans k)
  · have frozen : r.select t = r := select_frozen (by
      rw [live, takes]
      rintro ⟨l, k⟩
      rcases off with off | off
      · rw [l] at off
        cases off
      · rw [k] at off
        cases off)
    rw [frozen, ended, ← armed]
    exact ⟨rfl, lists t⟩
  · rw [select_indices, lists]
  · rw [(select_rest r t).2, ← sched]
  · exact fun o ne => ⟨(sel.others o ne).1.trans (others o ne), (sel.others o ne).2.trans (lists o)⟩

theorem setEngine_setEngine (s : State) (t : Trunk) (e g : Engine) : (s.setEngine t e).setEngine t g = s.setEngine t g := by
  have sets : (s.engines.set t e).set t g = s.engines.set t g := by
    unfold Four.set
    congr 1
    funext u
    rw [get_of]
    split
    · rfl
    · rfl
  exact congrArg (fun q => { s with engines := q }) sets

theorem set_get {α : Type} (q : Four α) (t : Trunk) : q.set t (q.get t) = q := by
  match t with
  | 0 => rfl
  | 1 => rfl
  | 2 => rfl
  | 3 => rfl

theorem setEngine_engine (s : State) (t : Trunk) : s.setEngine t (s.engine t) = s :=
  congrArg (fun q => { s with engines := q }) (set_get s.engines t)

end Sys2Proof.Proofs

/-! SUPPORT. Edges that show nothing beyond themselves, the lead mark, and how a foreign frame is judged (O40, O41, O43). -/

namespace Sys2Proof.Proofs

open Sys2Proof.Machine Sys2Proof.Laws Sys2Proof.Safety

/-- Half units as a multiple of U (R2). -/
theorem halves_eq (e : Engine) (k : Nat) : e.halves k = 5 * k * e.timing.unit := by
  unfold Engine.halves
  ring

/-! ### Edges -/

theorem drives_quiet {e : Engine} (h : e.pulse = .quiet) : e.drives = false := by
  unfold Engine.drives
  rw [h]

theorem edgePossible_of {e : Engine} {l : Level} (ne : e.level ≠ l) (free : l = .high → e.drives = false) :
    e.edgePossible l = true := by
  unfold Engine.edgePossible
  cases l with
  | low => simpa using ne
  | high => simpa [free rfl] using ne

/-- An edge that shows nothing beyond itself changes the engine alone (R3). -/
theorem exec_plainEdge {s : State} {t : Trunk} {l : Level} (ne : (s.engine t).level ≠ l)
    (free : l = .high → (s.engine t).drives = false) (plain : (s.engine t).judgeEdge l = .plain) :
    exec (.recognisedEdge t l) s = .next (s.setEngine t ((s.engine t).plainEdge l)) := by
  have taken : s.takeEdge t l = s.setEngine t ((s.engine t).plainEdge l) := by
    unfold State.takeEdge
    rw [plain]
    rfl
  rw [← taken]
  exact congrArg Host.Outcome.next (if_pos (edgePossible_of ne free))

theorem replyAfterEdge_low {e : Engine} (h : e.state ≠ .replyWait) : e.replyAfterEdge .low = e.reply := by
  unfold Engine.replyAfterEdge
  cases e.reply with
  | waiting =>
    cases e.window with
    | none => rfl
    | some w => exact if_neg fun k => h k.1
  | unset | low | rose _ => rfl

theorem replyAfterEdge_high (e : Engine) :
    e.replyAfterEdge .high = if e.reply = .low then .rose e.lowTime else e.reply := by
  unfold Engine.replyAfterEdge
  cases e.reply <;> rfl

theorem noteEdge_low {e : Engine} (h : e.state ≠ .replyWait) :
    e.noteEdge .low = { edged e .low with candidate := e.state.atRest, buffer := e.bufferAfterEdge .low } := by
  unfold Engine.noteEdge
  rw [replyAfterEdge_low h]
  rfl

theorem noteEdge_high (e : Engine) :
    e.noteEdge .high =
      { edged e .high with candidate := false, reply := if e.reply = .low then .rose e.lowTime else e.reply } := by
  unfold Engine.noteEdge
  rw [replyAfterEdge_high]
  rfl

theorem plainEdge_low {e : Engine} (h : e.pulse ≠ .gap) : e.plainEdge .low = e.noteEdge .low := by
  show (e.noteEdge .low).transmitterAfterEdge .low = _
  unfold Engine.transmitterAfterEdge
  have hp : (e.noteEdge .low).pulse ≠ .gap := h
  split
  · exact absurd ‹_› hp
  · rename_i k _
    cases k
  · rfl

theorem plainEdge_high {e : Engine} (h : ∀ w, e.pulse ≠ .rising w) : e.plainEdge .high = e.noteEdge .high := by
  show (e.noteEdge .high).transmitterAfterEdge .high = _
  unfold Engine.transmitterAfterEdge
  split
  · rename_i k _
    cases k
  · exact absurd ‹_› (h _)
  · rfl

/-- No frame is on its way: an edge shows nothing beyond itself. -/
theorem judgeEdge_plain {e : Engine} (sends : e.state.isSending = false) (follows : e.followsForeign = false) (l : Level) :
    e.judgeEdge l = .plain := by
  unfold Engine.judgeEdge
  rw [sends, follows]
  cases l <;> rfl

theorem bufferAfterEdge_idle {e : Engine} (sends : e.state.isSending = false) (follows : e.followsForeign = false)
    (l : Level) : e.bufferAfterEdge l = e.buffer := by
  unfold Engine.bufferAfterEdge
  cases l with
  | high => rfl
  | low =>
    dsimp only
    rw [follows, if_neg Bool.false_ne_true]
    split
    · rfl
    · rename_i sending _
      rw [sending] at sends
      cases sends
    · rfl

theorem bufferAfterEdge_follows {e : Engine} (follows : e.followsForeign = true) :
    e.bufferAfterEdge .low = e.bufferAfterFall := if_pos follows

theorem followsForeign_of {e : Engine} (st : e.state = .receiving) (w : e.window = none) : e.followsForeign = true := by
  simp [Engine.followsForeign, st, w]

theorem not_followsForeign {e : Engine} (h : ¬ (e.state = .receiving ∧ e.window = none)) : e.followsForeign = false := by
  unfold Engine.followsForeign
  rw [Bool.eq_false_iff]
  simpa using h

/-- A fall that shows nothing, without a frame on its way. -/
theorem exec_fall {s : State} {t : Trunk} (sends : (s.engine t).state.isSending = false)
    (follows : (s.engine t).followsForeign = false) (wait : (s.engine t).state ≠ .replyWait)
    (pulse : (s.engine t).pulse ≠ .gap) (high : (s.engine t).level = .high) :
    exec (.recognisedEdge t .low) s
      = .next (s.setEngine t { edged (s.engine t) .low with candidate := (s.engine t).state.atRest }) := by
  rw [exec_plainEdge (by rw [high]; decide) (by rintro ⟨⟩) (judgeEdge_plain sends follows .low), plainEdge_low pulse,
    noteEdge_low wait, bufferAfterEdge_idle sends follows]
  rfl

/-- A rise that shows nothing. -/
theorem exec_rise {s : State} {t : Trunk} (plain : (s.engine t).judgeEdge .high = .plain)
    (pulse : ∀ w, (s.engine t).pulse ≠ .rising w) (drives : (s.engine t).drives = false)
    (low : (s.engine t).level = .low) :
    exec (.recognisedEdge t .high) s
      = .next (s.setEngine t
          { edged (s.engine t) .high with
            candidate := false
            reply := if (s.engine t).reply = .low then .rose (s.engine t).lowTime else (s.engine t).reply }) := by
  rw [exec_plainEdge (by rw [low]; decide) (fun _ => drives) plain, plainEdge_high pulse, noteEdge_high]

theorem exec_noEdge (s : State) (t : Trunk) : exec (.recognisedEdge t (s.engine t).level) s = .next s := by
  have none : (s.engine t).edgePossible (s.engine t).level = false := by simp [Engine.edgePossible]
  exact congrArg Host.Outcome.next (if_neg (by rw [none]; exact Bool.false_ne_true))

theorem leadMarkDue_iff {e : Engine} (st : e.state = .idle ∨ e.state = .holding) (low : e.level = .low)
    (candidate : e.candidate = true) : e.leadMarkDue = true ↔ 60 * e.timing.unit ≤ e.lowTime := by
  have rest : e.state.atRest = true := by
    rcases st with st | st <;> rw [st] <;> rfl
  unfold Engine.leadMarkDue
  rw [rest, low, candidate, halves_eq]
  simp

/-- The octet count and the sum that a symbol of the frame adds to (R8, R39). -/
theorem bufferAfterFall_eq (e : Engine) : e.bufferAfterFall =
    if e.buffer.leadTaken = false then { e.buffer with leadTaken := true }
    else e.buffer.push (decide (20 * e.timing.unit ≤ e.edgeTime)) := by
  unfold Engine.bufferAfterFall
  rw [halves_eq]
  cases e.buffer.leadTaken <;> rfl

/-- Settles O40: the edges that show nothing beyond themselves, and the lead mark. -/
theorem edgesAndLeadMark : Obligations.EdgesAndLeadMark := by
  intro s t e u
  refine ⟨fun st pulse => ?_, exec_noEdge s t, fun st low candidate => ⟨fun due => ?_, fun early => ?_⟩, ?_⟩
  · have quiet : e.state.isSending = false ∧ e.state ≠ .replyWait ∧ e.state ≠ .receiving
        ∧ e.state.atRest = (e.state != .stuck) := by
      rcases st with st | st | st <;> rw [st] <;> decide
    obtain ⟨sends, wait, receiving, rest⟩ := quiet
    have follows : e.followsForeign = false := not_followsForeign fun k => receiving k.1
    have noGap : e.pulse ≠ .gap := by rw [pulse]; decide
    have noRise : ∀ w, e.pulse ≠ .rising w := by rw [pulse]; exact fun _ => Pulse.noConfusion
    refine ⟨fun high => ?_, fun low => ?_⟩
    · rw [exec_fall sends follows wait noGap high, ← rest]
    · exact exec_rise (judgeEdge_plain sends follows .high) noRise (drives_quiet pulse) low
  · exact congrArg Host.Outcome.next (if_pos ((leadMarkDue_iff st low candidate).2 due))
  · exact congrArg Host.Outcome.next (if_neg fun k => absurd ((leadMarkDue_iff st low candidate).1 k) (by omega))
  · intro b symbol bits octet length taken rose
    refine ⟨fun st window pulse => ?_, fun st gap rising => ?_⟩
    · have sends : e.state ≠ .replyWait := by rw [st]; decide
      have noGap : e.pulse ≠ .gap := by rw [pulse]; decide
      have noRise : ∀ w, e.pulse ≠ .rising w := by rw [pulse]; exact fun _ => Pulse.noConfusion
      refine ⟨fun high plain => ?_, fun low plain => ?_⟩
      · have differs : (s.engine t).level ≠ .low := by rw [show (s.engine t).level = .high from high]; decide
        rw [exec_plainEdge differs (by rintro ⟨⟩) plain, plainEdge_low noGap, noteEdge_low sends,
          bufferAfterEdge_follows (followsForeign_of st window), bufferAfterFall_eq,
          show (s.engine t).state = .receiving from st]
        rfl
      · exact exec_rise plain noRise (drives_quiet pulse) low
    · have quiet : e.state.isSending = false ∧ e.state ≠ .replyWait ∧ e.state.atRest = false := by
        rcases st with st | ⟨st, _⟩ <;> rw [st] <;> decide
      obtain ⟨sends, wait, rest⟩ := quiet
      have follows : e.followsForeign = false := not_followsForeign fun k => by
        rcases st with st | ⟨_, w⟩
        · rw [k.1] at st
          cases st
        · exact w k.2
      refine ⟨fun high => ?_, fun low drives => ?_⟩
      · rw [exec_fall sends follows wait gap high, rest]
      · exact exec_rise (judgeEdge_plain sends follows .high) rising drives low

/-! ### The judgement of a foreign frame -/

theorem fieldError_iff (b : Buffer) : b.fieldError = true ↔
    (b.count = 2 ∧ b.field 0 2 = 3) ∨ (b.count = 14 ∧ b.field 8 6 = 63)
      ∨ (b.count = 16 ∧ b.field 2 6 = 63 ∧ b.symbol 15 = true) ∨ (b.count = 21 ∧ 25 ≤ b.field 16 5) := by
  unfold Buffer.fieldError
  split
  · simp [*]
  · simp [*]
  · simp [*]
  · simp [*]
    omega
  · rename_i n2 n14 n16 n21
    refine ⟨fun h => absurd h Bool.false_ne_true, ?_⟩
    rintro (⟨h, _⟩ | ⟨h, _⟩ | ⟨h, _⟩ | ⟨h, _⟩)
    · exact (n2 h).elim
    · exact (n14 h).elim
    · exact (n16 h).elim
    · exact (n21 h).elim

theorem judgeEdge_foreign {e : Engine} (st : e.state = .receiving) (w : e.window = none) :
    e.judgeEdge .high = e.judgeForeignRise ∧ e.judgeEdge .low = e.judgeForeignFall := by
  unfold Engine.judgeEdge
  rw [followsForeign_of st w, st]
  exact ⟨rfl, rfl⟩

/-- An edge of the lead of a foreign frame (R5). -/
theorem judgeForeign_lead {e : Engine} (lead : e.buffer.leadTaken = false) :
    (e.judgeForeignRise = if 100 * e.timing.unit < e.edgeTime then .malformed .shapeError else .plain)
      ∧ e.judgeForeignFall =
          if e.edgeTime < 30 * e.timing.unit then .malformed .shapeError
          else if 50 * e.timing.unit < e.edgeTime then .malformed .truncation
          else .plain := by
  unfold Engine.judgeForeignRise Engine.judgeForeignFall
  simp only [lead, halves_eq]
  exact ⟨rfl, rfl⟩

/-- An edge behind the lead of a foreign frame (R6, R7, R8, R9, R11). -/
theorem judgeForeign_symbol {e : Engine} (lead : e.buffer.leadTaken = true) :
    (e.judgeForeignRise =
        if e.edgeTime < 5 * e.timing.unit ∨ 15 * e.timing.unit < e.edgeTime then .malformed .shapeError
        else if e.buffer.complete then (if e.buffer.checkPasses then .goodFrame else .malformed .checkFailure)
        else .plain)
      ∧ e.judgeForeignFall =
          if e.edgeTime < 5 * e.timing.unit then .malformed .shapeError
          else if 45 * e.timing.unit < e.edgeTime then .malformed .truncation
          else if (e.buffer.push (decide (20 * e.timing.unit ≤ e.edgeTime))).fieldError then .malformed .fieldError
          else .plain := by
  unfold Engine.judgeForeignRise Engine.judgeForeignFall
  simp only [bufferAfterFall_eq, lead, halves_eq]
  exact ⟨rfl, rfl⟩

theorem malformedByTime_lead {e : Engine} (st : e.state = .receiving) (w : e.window = none)
    (lead : e.buffer.leadTaken = false) :
    (e.level = .low → e.malformedByTime = if 100 * e.timing.unit ≤ e.edgeTime then some .shapeError else none)
      ∧ (e.level = .high → e.malformedByTime = if 50 * e.timing.unit ≤ e.edgeTime then some .truncation else none) := by
  unfold Engine.malformedByTime
  simp only [followsForeign_of st w, lead, halves_eq]
  refine ⟨fun h => ?_, fun h => ?_⟩
  · rw [h]
    rfl
  · rw [h]
    rfl

theorem malformedByTime_symbol {e : Engine} (st : e.state = .receiving) (w : e.window = none)
    (lead : e.buffer.leadTaken = true) :
    (e.level = .low → e.malformedByTime = if 15 * e.timing.unit ≤ e.edgeTime then some .shapeError else none)
      ∧ (e.level = .high → e.malformedByTime = if 45 * e.timing.unit ≤ e.edgeTime then some .truncation else none) := by
  unfold Engine.malformedByTime
  simp only [followsForeign_of st w, lead, halves_eq]
  refine ⟨fun h => ?_, fun h => ?_⟩
  · rw [h]
    rfl
  · rw [h]
    rfl

/-! ### The end of a malformed frame (R39, R120) -/

theorem otherLevel_of_ne {l m : Level} (h : l ≠ m) : otherLevel l = m := by
  cases l with
  | low =>
    cases m with
    | low => exact absurd rfl h
    | high => rfl
  | high =>
    cases m with
    | low => rfl
    | high => exact absurd rfl h

theorem frameOver_candidate {s v : State} {t : Trunk} (h : FrameOver s v t) (b : Bool) :
    FrameOver s (v.updateEngine t (fun e => { e with candidate := b })) t := by
  obtain ⟨state, hold, buffer, answer, window, drives, attempt, timing, mode, selected, frozen, indices, repeats, others,
    elsewhere⟩ := h
  have engine : (v.updateEngine t (fun e => { e with candidate := b })).engine t = { v.engine t with candidate := b } :=
    engine_setEngine_same _ _ _
  unfold FrameOver Selected
  rw [engine]
  refine ⟨state, hold, buffer, answer, window, drives, attempt, timing, mode, fun l k => ?_, frozen, indices, repeats,
    fun o ne => ?_, elsewhere⟩
  · have same : (v.updateEngine t (fun e => { e with candidate := b })).eligible t = v.eligible t := by
      funext x
      unfold State.eligible State.fitsWindow State.worstCaseMicros
      rw [engine]
      rfl
    rw [same]
    exact selected l k
  · exact ⟨(engine_setEngine_other _ _ _ _ ne).trans (others o ne).1, (others o ne).2⟩

/-- A malformed frame has been counted and has ended on a trunk (R27, R39, R120). -/
def FrameAbandoned (s v : State) (t : Trunk) (l : Level) (candidate : Bool) : Prop :=
  FrameOver s v t ∧ (v.engine t).level = l ∧ (v.engine t).candidate = candidate
    ∧ v.results.tallies.get t = { s.results.tallies.get t with malformed := (s.results.tallies.get t).malformed + 1 }
    ∧ (∀ o : Trunk, o ≠ t → v.results.tallies.get o = s.results.tallies.get o)
    ∧ v.results.queue = s.results.queue ∧ v.director = s.director ∧ v.regs = s.regs ∧ v.standby = s.standby

/-- The frame ends on an engine that stands as the trunk's does. -/
theorem frameAbandoned_abandonFrame {s : State} {t : Trunk} {g : Engine} (standing : SameStanding (s.engine t) g) :
    FrameAbandoned s ((s.setEngine t g).abandonFrame t) t g.level false := by
  have start : (s.setEngine t g).abandonFrame t = ((s.setEngine t g.endFrame).tally t Tally.addMalformed).select t := by
    unfold State.abandonFrame State.updateEngine
    rw [engine_setEngine_same, setEngine_setEngine]
    rfl
  rw [start]
  generalize hr : (s.setEngine t g.endFrame).tally t Tally.addMalformed = r
  have engine : r.engine t = g.endFrame := by
    rw [← hr]
    exact engine_setEngine_same s t _
  have results : r.results = { s.results with
      tallies := s.results.tallies.set t (Tally.addMalformed (s.results.tallies.get t)) } := by
    rw [← hr]
    rfl
  have sel := sendsOn_select r t
  have after := sel.engine.1
  rw [engine] at after
  have ends : FrameOver s (r.select t) t := by
    refine frameOver_select (g := g) ?_ ?_ ?_ engine standing
    · rw [← hr]
      exact (keeps_setEngine s t g.endFrame).1
    · rw [← hr]
      rfl
    · intro o ne
      rw [← hr]
      exact engine_setEngine_other s t o _ ne
  refine ⟨ends, ?_, ?_, ?_, fun o ne => ?_, ?_, ?_, ?_, ?_⟩
  · rw [after]
    rfl
  · rw [after]
    rfl
  · rw [(select_rest r t).1, results, get_set_same]
    rfl
  · rw [(select_rest r t).1, results, get_set_other _ _ _ _ ne]
  · rw [(select_rest r t).1, results]
  · rw [sel.director, ← hr]
    rfl
  · rw [sel.regs, ← hr]
    rfl
  · rw [sel.elsewhere.2, ← hr]
    rfl

theorem sameStanding_refl (e : Engine) : SameStanding e e := ⟨rfl, rfl, rfl, rfl, rfl⟩

theorem sameStanding_noteEdge (e : Engine) (l : Level) : SameStanding e (e.noteEdge l) := ⟨rfl, rfl, rfl, rfl, rfl⟩

/-- The low that the malformed edge began may be a lead mark (R5, R38). -/
theorem frameAbandoned_atEdge (s : State) (t : Trunk) (l : Level) :
    FrameAbandoned s (s.malformedAtEdge t l) t l (l == .low) := by
  obtain ⟨ends, level, _, tally, tallies, queue, director, regs, standby⟩ :=
    frameAbandoned_abandonFrame (sameStanding_noteEdge (s.engine t) l)
  refine ⟨frameOver_candidate ends _, ?_, ?_, tally, tallies, queue, director, regs, standby⟩
  · exact (congrArg Engine.level (engine_setEngine_same _ _ _)).trans level
  · exact congrArg Engine.candidate (engine_setEngine_same _ _ _)

theorem edgeMalformed_iff {e : Engine} {l : Level} {k : Malformation} (ne : e.level ≠ l) (drives : e.drives = false)
    (bad : e.judgeEdge l = .malformed k) : e.edgeMalformed = true := by
  unfold Engine.edgeMalformed Engine.nextVerdict
  rw [otherLevel_of_ne ne, edgePossible_of ne fun _ => drives, bad]
  rfl

theorem exec_malformedByTime {s : State} {t : Trunk} (late : (s.engine t).malformedByTime ≠ none)
    (noEdge : (s.engine t).edgeDue = false) : exec (.malformed t) s = .next (s.abandonFrame t) := by
  have some : (s.engine t).malformedByTime.isSome = true := Option.isSome_iff_ne_none.2 late
  have notEdge : ((s.engine t).edgeMalformed && ((s.engine t).edgeDue || (s.engine t).malformedByTime.isNone)) = false := by
    rw [noEdge, Option.isNone_eq_false_iff.2 some, Bool.or_self, Bool.and_false]
  exact congrArg Host.Outcome.next ((if_neg (by rw [notEdge]; exact Bool.false_ne_true)).trans (if_pos some))

theorem exec_malformedAtEdge {s : State} {t : Trunk} {l : Level} {k : Malformation} (ne : (s.engine t).level ≠ l)
    (drives : (s.engine t).drives = false) (early : (s.engine t).malformedByTime = none)
    (bad : (s.engine t).judgeEdge l = .malformed k) : exec (.malformed t) s = .next (s.malformedAtEdge t l) := by
  have edge : ((s.engine t).edgeMalformed && ((s.engine t).edgeDue || (s.engine t).malformedByTime.isNone)) = true := by
    rw [edgeMalformed_iff ne drives bad, early, Option.isNone_none, Bool.or_true, Bool.and_self]
  have taken : s.takeEdge t (otherLevel (s.engine t).level) = s.malformedAtEdge t l := by
    unfold State.takeEdge
    rw [otherLevel_of_ne ne, bad]
  rw [← taken]
  exact congrArg Host.Outcome.next (if_pos edge)

theorem frameAbandoned_byTime (s : State) (t : Trunk) :
    FrameAbandoned s (s.abandonFrame t) t (s.engine t).level false := by
  have ended := frameAbandoned_abandonFrame (sameStanding_refl (s.engine t))
  rwa [setEngine_engine] at ended

/-- Settles O41: how a foreign frame is judged, and how a malformed one ends. -/
theorem foreignFrameJudged : Obligations.ForeignFrameJudged := by
  refine ⟨fieldError_iff, fun s t => ?_⟩
  intro e u d st w
  obtain ⟨rise, fall⟩ := judgeEdge_foreign st w
  refine ⟨fun lead => ?_, fun lead => ?_, ?_⟩
  · obtain ⟨leadRise, leadFall⟩ := judgeForeign_lead lead
    rw [rise, fall, leadRise, leadFall]
    refine ⟨fun h => if_neg (Nat.not_lt.2 h), fun h => if_pos h, fun h => if_pos h, fun h k => ?_, fun h k => ?_,
      malformedByTime_lead st w lead⟩
    · rw [if_neg (Nat.not_lt.2 h), if_neg (Nat.not_lt.2 k)]
    · rw [if_neg (Nat.not_lt.2 h), if_pos k]
  · obtain ⟨symRise, symFall⟩ := judgeForeign_symbol lead
    rw [rise, fall, symRise, symFall]
    have inTime : 5 * u ≤ d → d ≤ 15 * u → ¬ (d < 5 * u ∨ 15 * u < d) := by omega
    refine ⟨fun h => if_pos h, fun h k more => ?_, fun h k all sum => ?_, fun h k all sum => ?_, fun h => if_pos h,
      fun h k => ?_, fun h k => ?_, malformedByTime_symbol st w lead⟩
    · rw [if_neg (inTime h k), more]
      rfl
    · rw [if_neg (inTime h k), all, Buffer.checkPasses, sum]
      rfl
    · rw [if_neg (inTime h k), all, Buffer.checkPasses, beq_false_of_ne sum]
      rfl
    · rw [if_neg (Nat.not_lt.2 h), if_pos k]
    · rw [if_neg (Nat.not_lt.2 h), if_neg (Nat.not_lt.2 k)]
  · intro ended
    exact ⟨fun late noEdge => ⟨_, exec_malformedByTime late noEdge, frameAbandoned_byTime s t⟩,
      fun l k ne drives early bad => ⟨_, exec_malformedAtEdge ne drives early bad, frameAbandoned_atEdge s t l⟩⟩

end Sys2Proof.Proofs

/-! SUPPORT. The elements of the engine's own frame, its losses and shape errors, its reply, the answers to received frames,
the stuck line and the timing values (O43, O46 to O49, O51). -/

namespace Sys2Proof.Proofs

open Sys2Proof.Machine Sys2Proof.Laws Sys2Proof.Safety

/-! ### Answers and the end of a received frame (R13, R40, R41) -/

theorem answerStartDue_iff {e : Engine} {w : Nat} (st : e.state = .answering) (pulse : e.pulse = .quiet)
    (window : e.window = some w) : e.answerStartDue = true ↔ 20 * e.timing.unit ≤ w := by
  unfold Engine.answerStartDue
  rw [st, pulse, window, halves_eq]
  simp

theorem answerEndDue_iff {e : Engine} {w : Nat} (st : e.state = .answering) (pulse : e.pulse = .answer w) :
    e.answerEndDue = true ↔ 5 * e.answer.halves * e.timing.unit ≤ w := by
  unfold Engine.answerEndDue
  rw [st, pulse, halves_eq]
  simp

theorem windowOver_iff {e : Engine} {w : Nat} (window : e.window = some w) :
    e.windowOver = true ↔ 90 * e.timing.unit ≤ w := by
  unfold Engine.windowOver
  rw [window, halves_eq]
  simp

theorem foreignCloseDue_iff {e : Engine} {w : Nat} (st : e.state = .receiving ∨ e.state = .answering)
    (window : e.window = some w) : e.foreignCloseDue = true ↔ 90 * e.timing.unit ≤ w := by
  rw [← windowOver_iff window]
  unfold Engine.foreignCloseDue
  rcases st with st | st
  · rw [st]
    simp
  · rw [st]
    simp

/-- A frame from another station ends on a trunk (R37, R40, R41). -/
theorem foreignFrameEnds_over (s : State) (t : Trunk) :
    let v := s.foreignFrameEnds t
    FrameOver s v t ∧ (v.engine t).level = (s.engine t).level ∧ (v.engine t).candidate = false
      ∧ v.director = s.director ∧ v.results = s.results ∧ v.regs = s.regs ∧ v.standby = s.standby := by
  intro v
  have sel := sendsOn_select (s.setEngine t (s.engine t).endFrame) t
  have after := sel.engine.1
  rw [engine_setEngine_same] at after
  refine ⟨?_, ?_, ?_, sel.director, (select_rest _ t).1, sel.regs, sel.elsewhere.2⟩
  · exact frameOver_select (keeps_setEngine s t _).1 rfl (fun o ne => engine_setEngine_other s t o _ ne)
      (engine_setEngine_same s t _) (sameStanding_refl _)
  · exact (congrArg Engine.level after).trans rfl
  · exact (congrArg Engine.candidate after).trans rfl

/-- Settles O43: the answer pulse begins and ends by its clocks, and the window closes 9U after the tail rise. -/
theorem answersAndFrameEnd : Obligations.AnswersAndFrameEnd := by
  intro s t e u
  refine ⟨fun w st pulse window => ⟨fun due => ?_, fun early => ?_⟩, fun w st pulse => ?_, fun _ => rfl, rfl,
    fun w st window => ⟨fun due => ?_, fun early => ?_⟩⟩
  · exact congrArg Host.Outcome.next (if_pos ((answerStartDue_iff st pulse window).2 due))
  · exact congrArg Host.Outcome.next (if_neg fun k => Nat.not_le.2 early ((answerStartDue_iff st pulse window).1 k))
  · have due := answerEndDue_iff st pulse
    refine ⟨fun order k => ?_, fun order k => ?_, fun order k => ?_, fun order k => ?_⟩
    · rw [order] at due
      exact congrArg Host.Outcome.next (if_pos (due.2 k))
    · rw [order] at due
      exact congrArg Host.Outcome.next (if_neg fun h => Nat.not_le.2 k (due.1 h))
    · rw [order] at due
      exact congrArg Host.Outcome.next (if_pos (due.2 k))
    · rw [order] at due
      exact congrArg Host.Outcome.next (if_neg fun h => Nat.not_le.2 k (due.1 h))
  · exact ⟨_, congrArg Host.Outcome.next (if_pos ((foreignCloseDue_iff st window).2 due)), foreignFrameEnds_over s t⟩
  · exact congrArg Host.Outcome.next (if_neg fun k => Nat.not_le.2 early ((foreignCloseDue_iff st window).1 k))

/-! ### Elements of the engine's own frame (R4, R31, R32, R33) -/

theorem elementElapsed_mark {e : Engine} {w : Nat} (sends : e.state.isSending = true) (pulse : e.pulse = .mark w) :
    e.elementElapsed = true ↔ 5 * e.elementHalves * e.timing.unit ≤ w := by
  unfold Engine.elementElapsed
  rw [sends, pulse, halves_eq]
  simp

theorem elementElapsed_gap {e : Engine} (sends : e.state.isSending = true) (pulse : e.pulse = .gap) :
    e.elementElapsed = true ↔ 5 * e.elementHalves * e.timing.unit ≤ e.edgeTime := by
  unfold Engine.elementElapsed
  rw [sends, pulse, halves_eq]
  simp

/-- An element that has lasted its length is followed by the next, and one that has not goes on. -/
theorem exec_element {s : State} {t : Trunk} {p : Prop} (due : (s.engine t).elementElapsed = true ↔ p) :
    (p → exec (.markOrGapLengthElapsed t) s = .next (s.setEngine t (s.engine t).nextElement))
      ∧ (¬ p → exec (.markOrGapLengthElapsed t) s = .next s) :=
  ⟨fun h => congrArg Host.Outcome.next (if_pos (due.2 h)), fun h => congrArg Host.Outcome.next (if_neg (h ∘ due.1))⟩

theorem judgeEdge_own {e : Engine} (sends : e.state.isSending = true) :
    e.judgeEdge .high = e.judgeOwnRise ∧ e.judgeEdge .low = e.judgeOwnFall := by
  unfold Engine.judgeEdge
  rw [sends]
  exact ⟨rfl, rfl⟩

theorem elementHalves_mark {e : Engine} {w : Nat} (pulse : e.pulse = .mark w) :
    e.elementHalves = if e.state = .sending .lead then 16 else 2 := by
  unfold Engine.elementHalves
  rw [pulse]
  split
  · rename_i st _
    rw [if_pos st]
  · rename_i h
    cases h
  · rename_i h
    cases h
  · rename_i h _ _
    rw [if_neg fun st => h w st rfl]

theorem elementHalves_leadGap {e : Engine} (st : e.state = .sending .lead) (pulse : e.pulse = .gap) :
    e.elementHalves = 8 := by
  unfold Engine.elementHalves
  rw [st, pulse]

theorem elementHalves_symbolGap {e : Engine} {a : Attempt} (st : e.state = .sending .symbols) (pulse : e.pulse = .gap)
    (own : e.attempt = some a) : e.elementHalves = if a.symbol a.position then 6 else 2 := by
  unfold Engine.elementHalves
  rw [st, pulse, own]

theorem nextElement_mark {e : Engine} {w : Nat} (pulse : e.pulse = .mark w) :
    e.nextElement = { e with pulse := .rising 0 } := by
  unfold Engine.nextElement
  rw [pulse]

theorem nextElement_gap {e : Engine} (pulse : e.pulse = .gap) : e.nextElement = e.beginMark := by
  unfold Engine.nextElement
  rw [pulse]

theorem beginMark_lead {e : Engine} (st : e.state = .sending .lead) :
    e.beginMark = { e with pulse := .mark 0, state := .sending .symbols } := by
  unfold Engine.beginMark
  rw [st]

theorem beginMark_symbols {e : Engine} {a : Attempt} (st : e.state = .sending .symbols) (own : e.attempt = some a) :
    e.beginMark =
      if a.position + 1 < 32 + 8 * a.length then
        { e with pulse := .mark 0, attempt := some { a with position := a.position + 1 } }
      else { e with pulse := .mark 0, state := .sending .tail } := by
  unfold Engine.beginMark
  rw [st, own]
  rfl

/-- The engine after a fall of its own frame other than that of its lead mark: the gap goes into the buffer (R32). -/
def ownFall (e : Engine) : Engine := { edged e .low with candidate := false, buffer := e.bufferAfterFall }

theorem bufferAfterEdge_own {e : Engine} {p : Phase} (st : e.state = .sending p)
    (notLead : p = .lead → ∀ w, e.pulse ≠ .mark w) : e.bufferAfterEdge .low = e.bufferAfterFall := by
  have follows : e.followsForeign = false := not_followsForeign fun k => by
    rw [st] at k
    cases k.1
  unfold Engine.bufferAfterEdge
  dsimp only
  rw [follows, st, if_neg Bool.false_ne_true]
  split
  · rename_i k pulse
    cases k
    exact absurd pulse (notLead rfl _)
  · rfl
  · rename_i h _
    exact absurd rfl (h p)

theorem noteEdge_ownFall {e : Engine} {p : Phase} (st : e.state = .sending p)
    (notLead : p = .lead → ∀ w, e.pulse ≠ .mark w) : e.noteEdge .low = ownFall e := by
  rw [noteEdge_low (by rw [st]; exact EngineState.noConfusion), bufferAfterEdge_own st notLead, st]
  rfl

/-- The fall of the engine's own lead mark ends no gap (R32). -/
theorem noteEdge_leadFall {e : Engine} {w : Nat} (st : e.state = .sending .lead) (pulse : e.pulse = .mark w) :
    e.noteEdge .low = { edged e .low with candidate := false } := by
  have follows : e.followsForeign = false := not_followsForeign fun k => by
    rw [st] at k
    cases k.1
  have buffer : e.bufferAfterEdge .low = e.buffer := by
    unfold Engine.bufferAfterEdge
    dsimp only
    rw [follows, st, pulse, if_neg Bool.false_ne_true]
  rw [noteEdge_low (by rw [st]; exact EngineState.noConfusion), buffer, st]
  rfl

theorem noteEdge_rise {e : Engine} (h : e.reply ≠ .low) : e.noteEdge .high = { edged e .high with candidate := false } := by
  rw [noteEdge_high, if_neg h]
  rfl

theorem plainEdge_gap {e : Engine} (pulse : e.pulse = .gap) : e.plainEdge .low = (e.noteEdge .low).beginMark := by
  show (e.noteEdge .low).transmitterAfterEdge .low = _
  unfold Engine.transmitterAfterEdge
  rw [show (e.noteEdge .low).pulse = .gap from pulse]

theorem plainEdge_rising {e : Engine} {w : Nat} (pulse : e.pulse = .rising w) :
    e.plainEdge .high = { e.noteEdge .high with pulse := .gap } := by
  show (e.noteEdge .high).transmitterAfterEdge .high = _
  unfold Engine.transmitterAfterEdge
  rw [show (e.noteEdge .high).pulse = .rising w from pulse]

theorem judgeOwnFall_mark {e : Engine} {w : Nat} (pulse : e.pulse = .mark w) : e.judgeOwnFall = .plain := by
  unfold Engine.judgeOwnFall
  rw [pulse]
  split
  · rename_i h
    cases h
  · rename_i h
    cases h
  · rfl

theorem judgeOwnFall_leadGap {e : Engine} (st : e.state = .sending .lead) (pulse : e.pulse = .gap) :
    e.judgeOwnFall = if e.edgeTime < 30 * e.timing.unit then .shape else .plain := by
  unfold Engine.judgeOwnFall
  rw [st, pulse, halves_eq]

theorem judgeOwnFall_symbolGap {e : Engine} {a : Attempt} (st : e.state = .sending .symbols) (pulse : e.pulse = .gap)
    (own : e.attempt = some a) :
    e.judgeOwnFall =
      if e.edgeTime < 5 * e.timing.unit then .shape
      else if a.symbol a.position && decide (e.edgeTime < 20 * e.timing.unit) then .lost else .plain := by
  unfold Engine.judgeOwnFall
  simp only [st, pulse, own, halves_eq]

theorem judgeOwnRise_rising {e : Engine} {w : Nat} (pulse : e.pulse = .rising w) :
    e.judgeOwnRise =
      if 20 * e.timing.unit < w then .shape else if e.state = .sending .tail then .tailReached else .plain := by
  unfold Engine.judgeOwnRise
  rw [pulse, halves_eq]

/-- A fall of the engine's own frame that shows nothing and begins no mark. -/
theorem exec_ownFall {s : State} {t : Trunk} {p : Phase} {w : Nat} (st : (s.engine t).state = .sending p)
    (pulse : (s.engine t).pulse = .mark w) (high : (s.engine t).level = .high) :
    exec (.recognisedEdge t .low) s = .next (s.setEngine t ((s.engine t).noteEdge .low)) := by
  have plain : (s.engine t).judgeEdge .low = .plain := by
    rw [(judgeEdge_own (by rw [st]; rfl)).2, judgeOwnFall_mark pulse]
  rw [exec_plainEdge (by rw [high]; decide) (by rintro ⟨⟩) plain, plainEdge_low (by rw [pulse]; exact Pulse.noConfusion)]

/-- A fall that ends a gap of the engine's own frame and shows nothing: the next mark begins (R4). -/
theorem exec_ownGap {s : State} {t : Trunk} {p : Phase} (st : (s.engine t).state = .sending p)
    (pulse : (s.engine t).pulse = .gap) (high : (s.engine t).level = .high)
    (plain : (s.engine t).judgeOwnFall = .plain) :
    exec (.recognisedEdge t .low) s = .next (s.setEngine t (ownFall (s.engine t)).beginMark) := by
  have judged : (s.engine t).judgeEdge .low = .plain := by rw [(judgeEdge_own (by rw [st]; rfl)).2, plain]
  rw [exec_plainEdge (by rw [high]; decide) (by rintro ⟨⟩) judged, plainEdge_gap pulse,
    noteEdge_ownFall st fun _ w => by rw [pulse]; exact Pulse.noConfusion]

/-- Settles O46: each element of the engine's own frame has its length, and is followed by the next. -/
theorem ownElements : Obligations.OwnElements := by
  intro s t a e u d becomes next fallen own
  refine ⟨fun w pulse => ?_, fun w pulse st low short reply => ?_, fun pulse st => ?_, fun pulse st bit => ?_,
    fun pulse st bit => ?_⟩
  · have element := fun sends => exec_element (s := s) (t := t) (elementElapsed_mark sends pulse)
    rw [nextElement_mark pulse, elementHalves_mark pulse] at element
    refine ⟨fun st => ?_, fun st => ?_, fun st => ?_, fun st => ?_, fun st high => ?_, fun st high => ?_⟩
    · rw [if_pos st] at element
      exact (element (by rw [st]; rfl)).1
    · rw [if_pos st] at element
      exact fun early => (element (by rw [st]; rfl)).2 (Nat.not_le.2 early)
    · rw [if_neg (by rcases st with st | st <;> rw [st] <;> decide)] at element
      exact (element (by rcases st with st | st <;> rw [st] <;> rfl)).1
    · rw [if_neg (by rcases st with st | st <;> rw [st] <;> decide)] at element
      exact fun early => (element (by rcases st with st | st <;> rw [st] <;> rfl)).2 (Nat.not_le.2 early)
    · show exec _ s = _
      rw [exec_ownFall st pulse high, noteEdge_leadFall st pulse]
    · rcases st with st | st
      · show exec _ s = _
        rw [exec_ownFall st pulse high, noteEdge_ownFall st (by rintro ⟨⟩)]
        rfl
      · show exec _ s = _
        rw [exec_ownFall st pulse high, noteEdge_ownFall st (by rintro ⟨⟩)]
        rfl
  · have judged : e.judgeEdge .high = .plain := by
      rw [(judgeEdge_own (by rcases st with st | st <;> rw [st] <;> rfl)).1, judgeOwnRise_rising pulse,
        if_neg (Nat.not_lt.2 short), if_neg (by rcases st with st | st <;> rw [st] <;> decide)]
    have free : e.drives = false := by
      unfold Engine.drives
      rw [pulse]
    show exec _ s = _
    rw [exec_plainEdge (by rw [show (s.engine t).level = .low from low]; decide) (fun _ => free) judged,
      plainEdge_rising pulse, noteEdge_rise (by rw [show (s.engine t).reply = .unset from reply]; decide)]
  · have element := exec_element (s := s) (t := t) (elementElapsed_gap (by rw [show (s.engine t).state = _ from st]; rfl) pulse)
    rw [nextElement_gap pulse, elementHalves_leadGap st pulse, beginMark_lead st] at element
    refine ⟨element.1, fun early => element.2 (Nat.not_le.2 early), fun late high => ?_⟩
    show exec _ s = _
    rw [exec_ownGap st pulse high (by rw [judgeOwnFall_leadGap st pulse, if_neg (Nat.not_lt.2 late)]),
      beginMark_lead (e := ownFall (s.engine t)) st]
    rfl
  · have element := exec_element (s := s) (t := t) (elementElapsed_gap (by rw [show (s.engine t).state = _ from st]; rfl) pulse)
    rw [nextElement_gap pulse, elementHalves_symbolGap st pulse own, beginMark_symbols st own, bit] at element
    refine ⟨element.1, fun early => element.2 (Nat.not_le.2 early), fun late high => ?_⟩
    show exec _ s = _
    rw [exec_ownGap st pulse high (by
        rw [judgeOwnFall_symbolGap st pulse own, if_neg (Nat.not_lt.2 late), bit]
        rfl),
      beginMark_symbols (e := ownFall (s.engine t)) st own]
    rfl
  · have element := exec_element (s := s) (t := t) (elementElapsed_gap (by rw [show (s.engine t).state = _ from st]; rfl) pulse)
    rw [nextElement_gap pulse, elementHalves_symbolGap st pulse own, beginMark_symbols st own, bit] at element
    refine ⟨element.1, fun early => element.2 (Nat.not_le.2 early), fun late high => ?_⟩
    show exec _ s = _
    have notShort : ¬ d < 5 * u := by omega
    rw [exec_ownGap st pulse high (by
        rw [judgeOwnFall_symbolGap st pulse own, if_neg notShort, bit, decide_eq_false (Nat.not_lt.2 late)]
        rfl),
      beginMark_symbols (e := ownFall (s.engine t)) st own]
    rfl

/-! ### Losses and shape errors (R18, R20, R35, R36) -/

theorem edgeShows_of {e : Engine} {l : Level} {v : Verdict} (ne : e.level ≠ l) (free : l = .high → e.drives = false)
    (judged : e.judgeEdge l = v) : e.edgeShows v = true := by
  unfold Engine.edgeShows Engine.nextVerdict
  rw [otherLevel_of_ne ne, edgePossible_of ne free, judged]
  simp

/-- An edge that shows `v` is taken with all that it shows. -/
theorem edgeWith_of {s : State} {t : Trunk} {l : Level} {v : Verdict} (ne : (s.engine t).level ≠ l)
    (free : l = .high → (s.engine t).drives = false) (judged : (s.engine t).judgeEdge l = v) :
    s.edgeWith t v = s.takeEdge t l := by
  unfold State.edgeWith
  rw [if_pos (edgeShows_of ne free judged), otherLevel_of_ne ne]

theorem attemptEnds_some {s : State} {t : Trunk} {a : Attempt} (own : (s.engine t).attempt = some a) (o : AttemptOutcome) :
    s.attemptEnds t o = (s.setEngine t (withoutAttempt (s.engine t))).outcome t a.index o := by
  unfold State.attemptEnds
  rw [own]
  rfl

/-- The frame ends on an engine with an attempt, the outcome is counted by `f`, and reported (R35, R37). -/
theorem attemptEnds_endFrame {s : State} {t : Trunk} {g : Engine} {a : Attempt} (own : g.attempt = some a)
    (f : Tally → Tally) (o : AttemptOutcome) :
    ((s.setEngine t g.endFrame).tally t f).attemptEnds t o
      = ((s.setEngine t (withoutAttempt (atFrameEnd g))).tally t f).outcome t a.index o := by
  have engine : ((s.setEngine t g.endFrame).tally t f).engine t = atFrameEnd g := engine_setEngine_same s t _
  rw [attemptEnds_some (by rw [engine]; exact own), engine]
  have ends : ((s.setEngine t g.endFrame).tally t f).setEngine t (withoutAttempt (atFrameEnd g))
      = (s.setEngine t (withoutAttempt (atFrameEnd g))).tally t f :=
    congrArg (fun v => State.tally v t f) (setEngine_setEngine s t _ _)
  rw [ends]

theorem shapeInSending_setEngine {s : State} {t : Trunk} {g : Engine} {a : Attempt} (own : g.attempt = some a) :
    (s.setEngine t g).shapeInSending t
      = ((s.setEngine t (withoutAttempt (atFrameEnd g))).tally t Tally.addShape).outcome t a.index .shape := by
  unfold State.shapeInSending State.updateEngine
  rw [engine_setEngine_same, setEngine_setEngine, attemptEnds_endFrame own]

theorem shapeInSending_some {s : State} {t : Trunk} {a : Attempt} (own : (s.engine t).attempt = some a) :
    s.shapeInSending t
      = ((s.setEngine t (withoutAttempt (atFrameEnd (s.engine t)))).tally t Tally.addShape).outcome t a.index .shape := by
  have ends := shapeInSending_setEngine (s := s) (t := t) own
  rwa [setEngine_engine] at ends

theorem lostAtFall_some {s : State} {t : Trunk} {a : Attempt} (own : (s.engine t).attempt = some a) :
    s.lostAtFall t = ((s.setEngine t (s.engine t).afterLoss).tally t Tally.addLoss).outcome t a.index .lost := by
  unfold State.lostAtFall
  rw [own]
  rfl

theorem shapeByTime_gap {e : Engine} (pulse : e.pulse = .gap) : e.shapeByTime = false := by
  unfold Engine.shapeByTime
  rw [pulse, Bool.and_false]

theorem shapeByTime_mark {e : Engine} {w : Nat} (sends : e.state.isSending = true) (pulse : e.pulse = .mark w)
    (high : e.level = .high) (late : 5 * e.timing.unit ≤ w) : e.shapeByTime = true := by
  unfold Engine.shapeByTime
  rw [sends, pulse, high, halves_eq]
  simpa using late

theorem shapeByTime_rising {e : Engine} {w : Nat} (sends : e.state.isSending = true) (pulse : e.pulse = .rising w)
    (low : e.level = .low) (late : 20 * e.timing.unit ≤ w) : e.shapeByTime = true := by
  unfold Engine.shapeByTime
  simp only [sends, pulse, low, halves_eq]
  simpa using late

theorem exec_shapeByTime {s : State} {t : Trunk} (late : (s.engine t).shapeByTime = true)
    (noEdge : (s.engine t).edgeDue = false) : exec (.shape t) s = .next (s.shapeInSending t) := by
  have notEdge : ((s.engine t).edgeShows .shape && ((s.engine t).edgeDue || !(s.engine t).shapeByTime)) = false := by
    rw [noEdge, late, Bool.not_true, Bool.or_self, Bool.and_false]
  exact congrArg Host.Outcome.next ((if_neg (by rw [notEdge]; exact Bool.false_ne_true)).trans (if_pos late))

theorem exec_shapeAtEdge {s : State} {t : Trunk} {l : Level} (ne : (s.engine t).level ≠ l)
    (free : l = .high → (s.engine t).drives = false) (early : (s.engine t).shapeByTime = false)
    (judged : (s.engine t).judgeEdge l = .shape) : exec (.shape t) s = .next (s.shapeAtEdge t l) := by
  have edge : ((s.engine t).edgeShows .shape && ((s.engine t).edgeDue || !(s.engine t).shapeByTime)) = true := by
    rw [edgeShows_of ne free judged, early, Bool.not_false, Bool.or_true, Bool.and_self]
  have taken : s.takeEdge t (otherLevel (s.engine t).level) = s.shapeAtEdge t l := by
    unfold State.takeEdge
    rw [otherLevel_of_ne ne, judged]
  rw [← taken]
  exact congrArg Host.Outcome.next (if_pos edge)

theorem exec_lost {s : State} {t : Trunk} (high : (s.engine t).level = .high)
    (judged : (s.engine t).judgeEdge .low = .lost) : exec (.lost t) s = .next (s.lostAtFall t) := by
  have edge := edgeWith_of (l := .low) (by rw [high]; decide) (by rintro ⟨⟩) judged
  have taken : s.takeEdge t .low = s.lostAtFall t := by
    unfold State.takeEdge
    rw [judged]
  exact congrArg Host.Outcome.next (edge.trans taken)

theorem afterLoss_eq {e : Engine} {p : Phase} (st : e.state = .sending p) (pulse : e.pulse = .gap) :
    e.afterLoss =
      { withoutAttempt (edged e .low) with
        state := .receiving, pulse := .quiet, window := none, candidate := false
        buffer := { e.bufferAfterFall with own := false } } := by
  unfold Engine.afterLoss
  rw [noteEdge_ownFall st fun _ w => by rw [pulse]; exact Pulse.noConfusion]
  rfl

/-- Settles O47: an arbitration loss, and the shape errors at an edge and by time. -/
theorem lostAndShape : Obligations.LostAndShape := by
  intro s t a e u d ended own
  refine ⟨fun st pulse high bit late early => ?_, fun pulse high short => ?_, fun p w st pulse high late noEdge => ?_,
    fun p w st pulse low late noEdge => ?_⟩
  · have judged : e.judgeEdge .low = .lost := by
      rw [(judgeEdge_own (by rw [st]; rfl)).2, judgeOwnFall_symbolGap st pulse own, if_neg (Nat.not_lt.2 late), bit,
        decide_eq_true early]
      rfl
    rw [exec_lost high judged, lostAtFall_some own, afterLoss_eq st pulse]
    rfl
  · intro v
    have sends : e.state.isSending = true := by
      rcases short with ⟨st, _⟩ | ⟨st, _⟩ <;> rw [st] <;> rfl
    have judged : e.judgeEdge .low = .shape := by
      rw [(judgeEdge_own sends).2]
      rcases short with ⟨st, early⟩ | ⟨st, early⟩
      · rw [judgeOwnFall_leadGap st pulse, if_pos early]
      · rw [judgeOwnFall_symbolGap st pulse own, if_pos early]
    have differs : e.level ≠ .low := by
      rw [high]
      decide
    rw [exec_shapeAtEdge differs (by rintro ⟨⟩) (shapeByTime_gap pulse) judged]
    have ends : (s.updateEngine t (fun e => e.noteEdge .low)).shapeInSending t = v :=
      shapeInSending_setEngine (g := e.noteEdge .low) own
    unfold State.shapeAtEdge
    rw [ends]
    rfl
  · rw [exec_shapeByTime (shapeByTime_mark (by rw [show (s.engine t).state = _ from st]; rfl) pulse high late) noEdge,
      shapeInSending_some own]
    rfl
  · rw [exec_shapeByTime (shapeByTime_rising (by rw [show (s.engine t).state = _ from st]; rfl) pulse low late) noEdge,
      shapeInSending_some own]
    rfl

/-! ### The tail and the reply window (R33, R34) -/

theorem tailAtRise_wanted {s : State} {t : Trunk} {a : Attempt} (own : (s.engine t).attempt = some a)
    (wanted : a.replyWanted = true) :
    s.tailAtRise t = (s.setEngine t ((s.engine t).noteEdge .high).awaitReply).tally t Tally.addSent := by
  unfold State.tailAtRise
  dsimp only
  rw [own, if_pos (by exact wanted)]
  unfold State.updateEngine
  have engine : ((s.setEngine t ((s.engine t).noteEdge .high)).tally t Tally.addSent).engine t
      = (s.engine t).noteEdge .high := engine_setEngine_same s t _
  rw [engine]
  exact congrArg (fun v => State.tally v t Tally.addSent) (setEngine_setEngine s t _ _)

theorem tailAtRise_unwanted {s : State} {t : Trunk} {a : Attempt} (own : (s.engine t).attempt = some a)
    (unwanted : a.replyWanted = false) :
    s.tailAtRise t =
      ((s.setEngine t (withoutAttempt (atFrameEnd (edged (s.engine t) .high)))).tally t Tally.addSent).outcome t a.index
        .sent := by
  unfold State.tailAtRise
  dsimp only
  rw [own, if_neg (by rw [Option.any_some, unwanted]; exact Bool.false_ne_true)]
  have ends : ((s.updateEngine t (fun e => e.noteEdge .high)).tally t Tally.addSent).updateEngine t Engine.endFrame
      = (s.setEngine t ((s.engine t).noteEdge .high).endFrame).tally t Tally.addSent := by
    unfold State.updateEngine
    have engine : ((s.setEngine t ((s.engine t).noteEdge .high)).tally t Tally.addSent).engine t
        = (s.engine t).noteEdge .high := engine_setEngine_same s t _
    rw [engine]
    exact congrArg (fun v => State.tally v t Tally.addSent) (setEngine_setEngine s t _ _)
  rw [ends, attemptEnds_endFrame (g := (s.engine t).noteEdge .high) own]
  rfl

theorem replyCloseDue_iff {e : Engine} {w : Nat} (st : e.state = .replyWait) (window : e.window = some w) :
    e.replyCloseDue = true ↔ 90 * e.timing.unit ≤ w := by
  rw [← windowOver_iff window]
  unfold Engine.replyCloseDue
  rw [st]
  simp

/-- Settles O48: the tail rise of the engine's own frame, and the close of its reply window. -/
theorem tailAndWindowClose : Obligations.TailAndWindowClose := by
  intro s t a w e u sent
  refine ⟨fun own st pulse low short => ?_, fun st window => ⟨fun due => ?_, fun early => ?_⟩⟩
  · have judged : e.judgeEdge .high = .tailReached := by
      rw [(judgeEdge_own (by rw [st]; rfl)).1, judgeOwnRise_rising pulse, if_neg (Nat.not_lt.2 short), if_pos st]
    have free : e.drives = false := by
      unfold Engine.drives
      rw [pulse]
    have differs : e.level ≠ .high := by
      rw [low]
      decide
    have taken : s.takeEdge t .high = s.tailAtRise t := by
      unfold State.takeEdge
      rw [judged]
    have ran : exec (.tailReached t) s = .next (s.tailAtRise t) :=
      congrArg Host.Outcome.next ((edgeWith_of differs (fun _ => free) judged).trans taken)
    rw [ran]
    refine ⟨fun wanted => ?_, fun unwanted => ?_⟩
    · rw [tailAtRise_wanted own wanted]
      rfl
    · rw [tailAtRise_unwanted own unwanted]
      rfl
  · exact congrArg Host.Outcome.next (if_pos ((replyCloseDue_iff st window).2 due))
  · exact congrArg Host.Outcome.next (if_neg fun k => Nat.not_le.2 early ((replyCloseDue_iff st window).1 k))

/-! ### The reply (R14, R34) -/

theorem replyAfterEdge_wait {e : Engine} {w : Nat} (st : e.state = .replyWait) (window : e.window = some w)
    (reply : e.reply = .waiting) :
    e.replyAfterEdge .low = if 10 * e.timing.unit ≤ w ∧ w ≤ 30 * e.timing.unit then .low else .waiting := by
  unfold Engine.replyAfterEdge
  simp only [reply, window, st, halves_eq, true_and]

theorem awaitsReply_of {e : Engine} {a : Attempt} (own : e.attempt = some a) (sends : e.state.isSending = false) :
    e.awaitsReply = true := by
  unfold Engine.awaitsReply
  rw [own, sends]
  rfl

theorem settled_low {e : Engine} (awaits : e.awaitsReply = true) (reply : e.reply = .low) :
    e.settled = if 70 * e.timing.unit ≤ e.lowTime then some .shape else none := by
  unfold Engine.settled
  rw [awaits, if_pos rfl, reply, halves_eq]

/-- The reply window is closed, or has lasted its 9U (R34). -/
def WindowPast (e : Engine) : Prop := e.window = none ∨ ∃ w, e.window = some w ∧ 90 * e.timing.unit ≤ w

theorem windowPast_iff (e : Engine) : (e.window == none || e.windowOver) = true ↔ WindowPast e := by
  unfold WindowPast
  cases window : e.window with
  | none => simp
  | some w =>
    have late := windowOver_iff window
    simp [late]

theorem settled_waiting {e : Engine} (awaits : e.awaitsReply = true) (reply : e.reply = .waiting) :
    (WindowPast e → e.settled = some .noReply) ∧ (¬ WindowPast e → e.settled = none) := by
  unfold Engine.settled
  rw [awaits, if_pos rfl, reply]
  exact ⟨fun h => if_pos ((windowPast_iff e).2 h), fun h => if_neg (h ∘ (windowPast_iff e).1)⟩

theorem settled_rose {e : Engine} {w : Nat} (awaits : e.awaitsReply = true) (reply : e.reply = .rose w) :
    (WindowPast e → e.settled = some (e.classifyPulse w)) ∧ (¬ WindowPast e → e.settled = none) := by
  unfold Engine.settled
  rw [awaits, if_pos rfl, reply]
  exact ⟨fun h => if_pos ((windowPast_iff e).2 h), fun h => if_neg (h ∘ (windowPast_iff e).1)⟩

theorem classifyPulse_eq (e : Engine) (w : Nat) : e.classifyPulse w =
    if w < 10 * e.timing.unit then .shape
    else if w < 35 * e.timing.unit then .accepted
    else if w ≤ 70 * e.timing.unit then .busy
    else .shape := by
  unfold Engine.classifyPulse
  simp only [halves_eq]

/-- What the classification of a pulse leaves to be said about each length (R14). -/
theorem classifyPulse_cases (e : Engine) (w : Nat) :
    let u := e.timing.unit
    (w < 10 * u → e.classifyPulse w = .shape) ∧ (10 * u ≤ w → w < 35 * u → e.classifyPulse w = .accepted)
      ∧ (35 * u ≤ w → w ≤ 70 * u → e.classifyPulse w = .busy) ∧ (70 * u < w → 10 * u ≤ w → e.classifyPulse w = .shape) := by
  intro u
  rw [classifyPulse_eq]
  refine ⟨fun h => if_pos h, fun h k => ?_, fun h k => ?_, fun h k => ?_⟩
  · rw [if_neg (Nat.not_lt.2 h), if_pos k]
  · rw [if_neg (by omega), if_neg (Nat.not_lt.2 h), if_pos k]
  · rw [if_neg (Nat.not_lt.2 k), if_neg (by omega), if_neg (by omega)]

theorem tally_id (s : State) (t : Trunk) : s.tally t (fun c => c) = s :=
  congrArg (fun q => { s with results := { s.results with tallies := q } }) (set_get s.results.tallies t)

theorem settleReply_some {s : State} {t : Trunk} {a : Attempt} (own : (s.engine t).attempt = some a) (o : AttemptOutcome) :
    s.settleReply t o =
      ((s.setEngine t (withoutAttempt (s.engine t))).tally t
        (fun c => if o = .shape then { c with shapes := c.shapes + 1 } else c)).outcome t a.index o := by
  unfold State.settleReply
  by_cases shape : o = .shape
  · subst shape
    rw [if_pos rfl, attemptEnds_some (s := s.tally t Tally.addShape) own]
    rfl
  · simp only [if_neg shape]
    rw [attemptEnds_some own, tally_id]

theorem exec_replySettled {s : State} {t : Trunk} {a : Attempt} {o : AttemptOutcome} (own : (s.engine t).attempt = some a)
    (settled : (s.engine t).settled = some o) :
    exec (.replySettled t) s = .next
      (((s.setEngine t (withoutAttempt (s.engine t))).tally t
        (fun c => if o = .shape then { c with shapes := c.shapes + 1 } else c)).outcome t a.index o) := by
  rw [← settleReply_some own]
  show execReplySettled t s = _
  unfold execReplySettled
  rw [settled]

theorem exec_replyUnsettled {s : State} {t : Trunk} (unsettled : (s.engine t).settled = none) :
    exec (.replySettled t) s = .next s := by
  show execReplySettled t s = _
  unfold execReplySettled
  rw [unsettled]

/-- Settles O49: the reply pulse is seen by its edges, and classified when it is over or the window has closed. -/
theorem replyClassified : Obligations.ReplyClassified := by
  intro s t e u
  refine ⟨fun w st pulse window high reply => ?_, fun st pulse low reply => ?_, fun a own sends => ?_⟩
  · have sends : e.state.isSending = false := by rw [st]; rfl
    have follows : e.followsForeign = false := not_followsForeign fun k => by
      rw [st] at k
      cases k.1
    have differs : e.level ≠ .low := by
      rw [high]
      decide
    rw [exec_plainEdge differs (by rintro ⟨⟩) (judgeEdge_plain sends follows .low),
      plainEdge_low (by rw [show (s.engine t).pulse = _ from pulse]; exact Pulse.noConfusion)]
    have rest : (Level.low == Level.low && e.state.atRest) = false := by
      rw [st]
      rfl
    unfold Engine.noteEdge
    rw [replyAfterEdge_wait st window reply, bufferAfterEdge_idle sends follows, rest]
    rfl
  · have sends : e.state.isSending = false := by rw [st]; rfl
    have follows : e.followsForeign = false := not_followsForeign fun k => by
      rw [st] at k
      cases k.1
    rw [exec_rise (judgeEdge_plain sends follows .high)
      (fun w => by rw [show (s.engine t).pulse = _ from pulse]; exact Pulse.noConfusion) (drives_quiet pulse) low,
      if_pos reply]
  · intro settles
    have awaits : e.awaitsReply = true := awaitsReply_of own sends
    have settle : ∀ o, e.settled = some o → settles o := fun o => exec_replySettled own
    refine ⟨fun reply late => settle _ ?_, fun reply early => exec_replyUnsettled ?_, fun past => ⟨fun reply => settle _ ?_,
      fun w reply => ?_⟩, fun w window early seen => exec_replyUnsettled ?_⟩
    · rw [settled_low awaits reply, if_pos late]
    · rw [settled_low awaits reply, if_neg (Nat.not_le.2 early)]
    · exact (settled_waiting awaits reply).1 past
    · have rose := (settled_rose awaits reply).1 past
      obtain ⟨short, accepted, busy, long⟩ := classifyPulse_cases e w
      refine ⟨fun h => settle _ ?_, fun h k => settle _ ?_, fun h k => settle _ ?_, fun h k => settle _ ?_⟩
      · rw [rose, short h]
      · rw [rose, accepted h k]
      · rw [rose, busy h k]
      · rw [rose, long h k]
    · have notPast : ¬ WindowPast e := by
        rintro (h | ⟨v, h, late⟩)
        · rw [show (s.engine t).window = _ from window] at h
          cases h
        · rw [window] at h
          cases h
          exact Nat.not_le.2 early late
      rcases seen with reply | ⟨k, reply⟩
      · exact (settled_waiting awaits reply).2 notPast
      · exact (settled_rose awaits reply).2 notPast

/-! ### The stuck line and the timing values (R43, R44, R47) -/

theorem stuckDue_iff {e : Engine} (st : e.state = .idle ∨ e.state = .holding) (low : e.level = .low) :
    e.stuckDue = true ↔ 400 * e.timing.unit ≤ e.lowTime := by
  have rest : e.state.atRest = true := by
    rcases st with st | st <;> rw [st] <;> rfl
  unfold Engine.stuckDue
  rw [rest, low, halves_eq]
  simp

theorem recoveryDue_iff {e : Engine} (st : e.state = .stuck) (high : e.level = .high) :
    e.recoveryDue = true ↔ 200 * e.timing.unit ≤ e.recoveryTime := by
  unfold Engine.recoveryDue
  rw [st, high, halves_eq]
  simp

theorem timingDue_iff (e : Engine) : e.timingDue = true ↔
    e.pendingTiming ≠ none ∧ (e.state = .idle ∨ e.state = .holding) ∧ e.level = .high ∧ e.attempt = none := by
  have rest : e.state.atRest = true ↔ e.state = .idle ∨ e.state = .holding := by
    cases e.state <;> simp [EngineState.atRest]
  unfold Engine.timingDue
  simp [rest, Option.isSome_iff_ne_none, and_assoc]

theorem takeTiming_some {e : Engine} {v : Timing} (pending : e.pendingTiming = some v) :
    e.takeTiming =
      { e with
        timing := v, pendingTiming := none, holdClock := 0
        armed := e.armed.map (fun m => { m with holdUnits := v.hold + 2 * m.cls.code + 4 * m.retry.toNat }) } := by
  unfold Engine.takeTiming
  rw [pending]
  rfl

/-- Settles O51: the stuck line and its recovery, and the moment at which pending timing values take effect. -/
theorem stuckAndTiming : Obligations.StuckAndTiming := by
  intro s t e u
  refine ⟨fun st low => ⟨fun late => ?_, fun early => ?_⟩, fun st high => ⟨fun late => ?_, fun early => ?_⟩, rfl,
    fun v pending st high own => ?_, fun not => ?_⟩
  · exact congrArg Host.Outcome.next (if_pos ((stuckDue_iff st low).2 late))
  · exact congrArg Host.Outcome.next (if_neg fun k => Nat.not_le.2 early ((stuckDue_iff st low).1 k))
  · exact congrArg Host.Outcome.next (if_pos ((recoveryDue_iff st high).2 late))
  · exact congrArg Host.Outcome.next (if_neg fun k => Nat.not_le.2 early ((recoveryDue_iff st high).1 k))
  · have due : e.timingDue = true := (timingDue_iff e).2 ⟨by rw [pending]; exact Option.some_ne_none v, st, high, own⟩
    have ran : exec (.timingTakesEffect t) s = .next (s.takeTiming t) := congrArg Host.Outcome.next (if_pos due)
    rw [ran]
    unfold State.takeTiming State.updateEngine
    dsimp only
    refine ⟨fun live => ?_, fun faulted => ?_⟩
    · rw [if_neg live, takeTiming_some pending]
    · rw [if_pos faulted, takeTiming_some pending]
  · refine congrArg Host.Outcome.next (if_neg fun k => ?_)
    obtain ⟨pending, st, high, own⟩ := (timingDue_iff e).1 k
    rcases not with h | ⟨idle, holding⟩ | low | h
    · exact pending h
    · exact st.elim idle holding
    · rw [high] at low
      cases low
    · exact h own

end Sys2Proof.Proofs

/-! SUPPORT. The decision of the receive director at the tail of a good frame (O42; R40, R121 to R127, R170). -/

namespace Sys2Proof.Proofs

open Sys2Proof.Machine Sys2Proof.Laws Sys2Proof.Safety

/-! ### The address match and the duplicate test (R121, R124) -/

/-- A destination is one of the groups of a listen record (R121). -/
abbrev InGroup (l : Listen) (dest : Nat) : Prop :=
  some dest = l.groups.t0 ∨ some dest = l.groups.t1 ∨ some dest = l.groups.t2 ∨ some dest = l.groups.t3

theorem kindOf_unicast_iff (l : Listen) (dest : Nat) : l.kindOf dest = .unicast ↔ dest = l.own := by
  unfold Listen.kindOf
  by_cases own : dest = l.own
  · simp [own]
  · rw [if_neg own]
    refine ⟨fun h => ?_, fun h => absurd h own⟩
    split at h
    · cases h
    · split at h
      · cases h
      · cases h

theorem kindOf_other {l : Listen} {dest : Nat} (own : dest ≠ l.own) :
    l.kindOf dest =
      if InGroup l dest then .group else if dest = 63 ∧ l.acceptBroadcast = true then .broadcast else .noMatch :=
  if_neg own

theorem kindOf_group_iff (l : Listen) (dest : Nat) : l.kindOf dest = .group ↔ dest ≠ l.own ∧ InGroup l dest := by
  by_cases own : dest = l.own
  · rw [(kindOf_unicast_iff l dest).2 own]
    simp [own]
  · rw [kindOf_other own]
    by_cases group : InGroup l dest
    · rw [if_pos group]
      simp [own, group]
    · rw [if_neg group]
      refine ⟨fun h => ?_, fun h => absurd h.2 group⟩
      split at h
      · cases h
      · cases h

theorem kindOf_broadcast_iff (l : Listen) (dest : Nat) :
    l.kindOf dest = .broadcast ↔ dest ≠ l.own ∧ ¬ InGroup l dest ∧ dest = 63 ∧ l.acceptBroadcast = true := by
  by_cases own : dest = l.own
  · rw [(kindOf_unicast_iff l dest).2 own]
    simp [own]
  · rw [kindOf_other own]
    by_cases group : InGroup l dest
    · rw [if_pos group]
      simp [group]
    · rw [if_neg group]
      by_cases all : dest = 63 ∧ l.acceptBroadcast = true
      · rw [if_pos all]
        exact ⟨fun _ => ⟨own, group, all⟩, fun _ => rfl⟩
      · rw [if_neg all]
        exact ⟨nofun, fun h => absurd h.2.2 all⟩

theorem kindOf_noMatch_iff (l : Listen) (dest : Nat) :
    l.kindOf dest = .noMatch ↔ ¬ (dest = l.own ∨ InGroup l dest ∨ dest = 63 ∧ l.acceptBroadcast = true) := by
  have unicast := kindOf_unicast_iff l dest
  have group := kindOf_group_iff l dest
  have broadcast := kindOf_broadcast_iff l dest
  cases h : l.kindOf dest with
  | noMatch =>
    rw [h] at unicast group broadcast
    refine ⟨fun _ => ?_, fun _ => rfl⟩
    rintro (own | inGroup | all)
    · exact nomatch unicast.2 own
    · by_cases own : dest = l.own
      · exact nomatch unicast.2 own
      · exact nomatch group.2 ⟨own, inGroup⟩
    · by_cases own : dest = l.own
      · exact nomatch unicast.2 own
      · by_cases inGroup : InGroup l dest
        · exact nomatch group.2 ⟨own, inGroup⟩
        · exact nomatch broadcast.2 ⟨own, inGroup, all⟩
  | unicast => exact ⟨nofun, fun k => absurd (.inl (unicast.1 h)) k⟩
  | group => exact ⟨nofun, fun k => absurd (.inr (.inl (group.1 h).2)) k⟩
  | broadcast => exact ⟨nofun, fun k => absurd (.inr (.inr (broadcast.1 h).2.2)) k⟩

theorem isDuplicate_iff (s : State) (t : Trunk) (g : GoodFrame) : s.isDuplicate t g = true ↔
    g.dest = (s.director.listen.get t).own ∧ (s.director.dups.get t)[g.source]? = some (some g.duplicate) := by
  unfold State.isDuplicate Director.duplicateOf
  rw [Bool.and_eq_true, beq_iff_eq, beq_iff_eq, kindOf_unicast_iff]
  cases (s.director.dups.get t)[g.source]? <;> simp

theorem queueOpen_iff (s : State) : s.queueOpen = true ↔
    s.session.state = .running ∨ s.session.state = .paused ∨ s.session.state = .settling
      ∨ s.session.state = .standby := by
  unfold State.queueOpen
  cases s.session.state <;> simp

/-! ### The decision, case by case (R121 to R126) -/

theorem decideFrame_noMatch {s : State} {t : Trunk} {g : GoodFrame}
    (h : (s.director.listen.get t).kindOf g.dest = .noMatch) : s.decideFrame t g = (s, .silent) := if_pos h

theorem decideFrame_duplicate {s : State} {t : Trunk} {g : GoodFrame} (h : s.isDuplicate t g = true) :
    s.decideFrame t g = (s.tally t Tally.addDuplicate, answerIf g.replyWanted .accept) := by
  have matched : (s.director.listen.get t).kindOf g.dest ≠ .noMatch := by
    rw [(kindOf_unicast_iff _ _).2 ((isDuplicate_iff s t g).1 h).1]
    exact nofun
  unfold State.decideFrame
  rw [if_neg matched, if_pos h]

/-- A frame that matches and is no duplicate goes by the queue (R125, R126). -/
theorem decideFrame_fresh {s : State} {t : Trunk} {g : GoodFrame}
    (matched : (s.director.listen.get t).kindOf g.dest ≠ .noMatch) (fresh : s.isDuplicate t g = false) :
    s.decideFrame t g =
      if s.queueOpen then
        if s.director.queue.length < 6 then (s.acceptFrame t g, answerIf g.replyWanted .accept)
        else ((s.tally t Tally.addRefused).raise .starved, answerIf g.replyWanted .busy)
      else (s.tally t Tally.addRefused, answerIf g.replyWanted .busy) := by
  unfold State.decideFrame
  rw [if_neg matched, if_neg (by rw [fresh]; exact Bool.false_ne_true)]
  rfl

/-- The decision leaves the engines and the send scheduler. -/
theorem acceptFrame_trunks (s : State) (t : Trunk) (g : GoodFrame) :
    (s.acceptFrame t g).engines = s.engines ∧ (s.acceptFrame t g).sched = s.sched := by
  unfold State.acceptFrame State.rememberUnicast State.reportAcceptance State.assignIfRunning
  dsimp only
  repeat' split
  all_goals exact ⟨rfl, rfl⟩

theorem decideFrame_trunks (s : State) (t : Trunk) (g : GoodFrame) :
    (s.decideFrame t g).1.engines = s.engines ∧ (s.decideFrame t g).1.sched = s.sched := by
  unfold State.decideFrame
  repeat' split
  · exact ⟨rfl, rfl⟩
  · exact ⟨rfl, rfl⟩
  · exact acceptFrame_trunks s t g
  · exact ⟨rfl, rfl⟩
  · exact ⟨rfl, rfl⟩

/-! ### The accepted frame (R125, R130, R131) -/

/-- The delivery queue with the frame at its end, before any slot is assigned (R125). -/
def joinedQueue (s : State) (t : Trunk) (g : GoodFrame) : State :=
  (s.setFrames (s.director.queue ++ [s.queuedFrame t g])).rememberUnicast t g

theorem acceptFrame_standby {s : State} {t : Trunk} {g : GoodFrame} (st : s.session.state = .standby) :
    s.acceptFrame t g = (joinedQueue s t g).reportAcceptance t := if_pos st

theorem acceptFrame_other {s : State} {t : Trunk} {g : GoodFrame} (st : s.session.state ≠ .standby) :
    s.acceptFrame t g = (joinedQueue s t g).assignIfRunning := if_neg st

/-- The frame has joined, and the duplicate table has taken a unicast one; nothing else has changed (R123, R125). -/
theorem joinedQueue_eq (s : State) (t : Trunk) (g : GoodFrame) : joinedQueue s t g =
    { s with
      director :=
        { s.director with
          queue := s.director.queue ++ [s.queuedFrame t g]
          dups :=
            if g.dest = (s.director.listen.get t).own then
              s.director.dups.set t ((s.director.dups.get t).setIfInBounds g.source (some g.duplicate))
            else s.director.dups } } := by
  unfold joinedQueue State.rememberUnicast
  by_cases own : g.dest = (s.director.listen.get t).own
  · rw [if_pos own]
    exact if_pos ((kindOf_unicast_iff _ _).2 own)
  · rw [if_neg own]
    exact if_neg fun h => own ((kindOf_unicast_iff _ _).1 h)

theorem assignIfRunning_of {s : State} (st : s.session.state = .running ∨ s.session.state = .paused)
    (owed : s.session.resumeOwed = none) : s.assignIfRunning = s.assignSlots := if_pos ⟨st, owed⟩

theorem assignIfRunning_not {s : State}
    (h : ¬ ((s.session.state = .running ∨ s.session.state = .paused) ∧ s.session.resumeOwed = none)) :
    s.assignIfRunning = s := if_neg h

theorem assignIfRunning_rest (s : State) : s.assignIfRunning =
    { s with director := { s.director with
        queue := s.assignIfRunning.director.queue, receiveList := s.assignIfRunning.director.receiveList } } := by
  unfold State.assignIfRunning
  split
  · rfl
  · rfl

theorem reportAcceptance_of {s : State} {t : Trunk} (enabled : s.standby.wakeEnable.get t = true)
    (asleep : s.standby.wake = false) :
    s.reportAcceptance t =
      { s with standby := { s.standby with wake := true }, regs := { s.regs with intCause := s.regs.intCause ||| 32#6 } } :=
  if_pos ⟨enabled, asleep⟩

theorem reportAcceptance_not {s : State} {t : Trunk} (h : s.standby.wakeEnable.get t = false ∨ s.standby.wake = true) :
    s.reportAcceptance t = s := if_neg fun k => by
  rcases h with h | h
  · rw [k.1] at h
    cases h
  · rw [k.2] at h
    cases h

theorem reportAcceptance_director (s : State) (t : Trunk) :
    (s.reportAcceptance t).director = s.director ∧ (s.reportAcceptance t).results = s.results := by
  unfold State.reportAcceptance
  split
  · exact ⟨rfl, rfl⟩
  · exact ⟨rfl, rfl⟩

/-- The director, the results, WAKE and the causes after an accepted frame (R125, R130, R170). -/
theorem acceptFrame_parts (s : State) (t : Trunk) (g : GoodFrame) :
    let v := s.acceptFrame t g
    let q := s.queuedFrame t g
    ((s.session.state = .running ∨ s.session.state = .paused) → s.session.resumeOwed = none →
        (v.director.queue, v.director.receiveList) = assignFrom [] (s.director.queue ++ [q]) s.director.receiveList)
    ∧ (s.session.state = .settling ∨ s.session.state = .standby
          ∨ (s.session.state = .running ∧ s.session.resumeOwed ≠ none) →
        v.director.queue = s.director.queue ++ [q] ∧ v.director.receiveList = s.director.receiveList)
    ∧ v.director.dups = (joinedQueue s t g).director.dups
    ∧ v.results = s.results
    ∧ (s.session.state = .standby → s.standby.wakeEnable.get t = true → s.standby.wake = false →
        v.standby = { s.standby with wake := true } ∧ v.regs = { s.regs with intCause := s.regs.intCause ||| 32#6 })
    ∧ (s.session.state ≠ .standby ∨ s.standby.wakeEnable.get t = false ∨ s.standby.wake = true →
        v.standby = s.standby ∧ v.regs = s.regs) := by
  intro v q
  have joined := joinedQueue_eq s t g
  by_cases st : s.session.state = .standby
  · have hv : v = (joinedQueue s t g).reportAcceptance t := acceptFrame_standby st
    obtain ⟨director, results⟩ := reportAcceptance_director (joinedQueue s t g) t
    rw [hv, director, results]
    refine ⟨fun h => ?_, fun _ => ?_, rfl, ?_, fun _ enabled asleep => ?_, fun h => ?_⟩
    · rcases h with h | h
      · rw [st] at h
        cases h
      · rw [st] at h
        cases h
    · rw [joined]
      exact ⟨rfl, rfl⟩
    · rw [joined]
    · rw [reportAcceptance_of (by rw [joined]; exact enabled) (by rw [joined]; exact asleep), joined]
      exact ⟨rfl, rfl⟩
    · have off : (joinedQueue s t g).standby.wakeEnable.get t = false ∨ (joinedQueue s t g).standby.wake = true := by
        rw [joined]
        exact h.resolve_left (absurd st)
      rw [reportAcceptance_not off, joined]
      exact ⟨rfl, rfl⟩
  · have hv : v = (joinedQueue s t g).assignIfRunning := acceptFrame_other st
    have session : (joinedQueue s t g).session = s.session := by rw [joined]
    have rest := assignIfRunning_rest (joinedQueue s t g)
    rw [hv]
    refine ⟨fun run owed => ?_, fun still => ?_, ?_, ?_, fun h => absurd h st, fun _ => ?_⟩
    · rw [assignIfRunning_of (by rw [session]; exact run) (by rw [session]; exact owed), joined]
      rfl
    · rw [assignIfRunning_not, joined]
      · exact ⟨rfl, rfl⟩
      · rw [session]
        rintro ⟨run, owed⟩
        rcases still with h | h | ⟨_, h⟩
        · rw [h] at run
          simp at run
        · exact st h
        · exact h owed
    · rw [rest]
    · rw [rest, joined]
    · rw [rest, joined]
      exact ⟨rfl, rfl⟩

/-! ### The engine at the tail rise (R40, R41) -/

/-- The engine at the tail rise of a good frame: its buffer is cleared (R40). -/
def tailRisen (e : Engine) : Engine := { e.noteEdge .high with buffer := Buffer.cleared false }

/-- The state in which the director decides. -/
def atTail (s : State) (t : Trunk) : State := s.setEngine t (tailRisen (s.engine t))

theorem goodFrameAtRise_eq (s : State) (t : Trunk) :
    s.goodFrameAtRise t =
      let g := frameOfOctets (s.engine t).buffer.octets
      let d := (atTail s t).decideFrame t g
      if g.replyWanted then d.1.updateEngine t (fun e => e.openWindow d.2) else d.1.foreignFrameEnds t := rfl

/-- What the engine makes of the answer order (R40, R41). -/
def Answered (s v : State) (t : Trunk) (g : GoodFrame) (o : AnswerOrder) : Prop :=
  (g.replyWanted = true →
    (v.engine t).window = some 0 ∧ (v.engine t).state = (if o = .silent then .receiving else .answering)
    ∧ (o ≠ .silent → (v.engine t).answer = o) ∧ (v.engine t).armed = (s.engine t).armed ∧ v.sched = s.sched)
  ∧ (g.replyWanted = false → FrameOver s v t)

theorem openWindow_eq (e : Engine) (o : AnswerOrder) :
    (e.openWindow o).window = some 0 ∧ (e.openWindow o).state = (if o = .silent then e.state else .answering)
      ∧ (o ≠ .silent → (e.openWindow o).answer = o) ∧ (e.openWindow o).armed = e.armed
      ∧ (e.openWindow o).level = e.level ∧ (e.openWindow o).buffer = e.buffer := by
  cases o with
  | silent => exact ⟨rfl, rfl, fun h => absurd rfl h, rfl, rfl, rfl⟩
  | accept => exact ⟨rfl, rfl, fun _ => rfl, rfl, rfl, rfl⟩
  | busy => exact ⟨rfl, rfl, fun _ => rfl, rfl, rfl, rfl⟩

/-- The state in which the director has decided differs from the one before the rise in the trunk's engine, the director,
the results, the causes and WAKE alone. -/
structure Decided (s r : State) (t : Trunk) : Prop where
  elsewhere : SameElsewhere s r
  engine : r.engine t = tailRisen (s.engine t)
  others : ∀ o, o ≠ t → r.engine o = s.engine o
  sched : r.sched = s.sched

theorem decided_decideFrame (s : State) (t : Trunk) (g : GoodFrame) : Decided s ((atTail s t).decideFrame t g).1 t := by
  obtain ⟨engines, sched⟩ := decideFrame_trunks (atTail s t) t g
  refine ⟨?_, ?_, fun o ne => ?_, sched⟩
  · exact same_trans (keeps_setEngine s t _).1 (lineEvent_decideFrame (atTail s t) t g).elsewhere
  · rw [State.engine, engines]
    exact engine_setEngine_same s t _
  · rw [State.engine, engines]
    exact engine_setEngine_other s t o _ ne

theorem answered_window {s r : State} {t : Trunk} {g : GoodFrame} (h : Decided s r t) (st : (s.engine t).state = .receiving)
    (wanted : g.replyWanted = true) (o : AnswerOrder) :
    let v := r.updateEngine t (fun e => e.openWindow o)
    (v.engine t).level = .high ∧ (v.engine t).buffer.octets = [] ∧ SameElsewhere s v ∧ OtherTrunksSame s v t
      ∧ Answered s v t g o := by
  intro v
  have engine : v.engine t = (tailRisen (s.engine t)).openWindow o := by rw [← h.engine]; exact engine_setEngine_same r t _
  obtain ⟨window, state, answer, armed, level, buffer⟩ := openWindow_eq (tailRisen (s.engine t)) o
  refine ⟨?_, ?_, h.elsewhere, fun x ne => ⟨?_, ?_⟩, fun _ => ⟨?_, ?_, ?_, ?_, h.sched⟩, fun k => ?_⟩
  · rw [engine, level]
    rfl
  · rw [engine, buffer]
    rfl
  · exact (engine_setEngine_other r t x _ ne).trans (h.others x ne)
  · exact congrArg (fun q : Scheduler => q.lists.get x) h.sched
  · rw [engine, window]
  · rw [engine, state, show (tailRisen (s.engine t)).state = .receiving from st]
  · rw [engine]
    exact answer
  · rw [engine, armed]
    rfl
  · rw [wanted] at k
    cases k

theorem answered_ended {s r : State} {t : Trunk} {g : GoodFrame} (h : Decided s r t) (unwanted : g.replyWanted = false)
    (o : AnswerOrder) :
    let v := r.foreignFrameEnds t
    (v.engine t).level = .high ∧ (v.engine t).buffer.octets = [] ∧ SameElsewhere s v ∧ OtherTrunksSame s v t
      ∧ Answered s v t g o := by
  intro v
  have engine : (r.updateEngine t Engine.endFrame).engine t = (tailRisen (s.engine t)).endFrame := by
    rw [← h.engine]
    exact engine_setEngine_same r t _
  have ends : FrameOver s v t := by
    refine frameOver_select (g := tailRisen (s.engine t)) h.elsewhere h.sched (fun o ne => ?_) engine ⟨rfl, rfl, rfl, rfl, rfl⟩
    exact (engine_setEngine_other r t o _ ne).trans (h.others o ne)
  obtain ⟨_, level, _⟩ := foreignFrameEnds_over r t
  have ⟨_, _, buffer, _, _, _, _, _, _, _, _, _, _, others, elsewhere⟩ := ends
  refine ⟨level.trans (by rw [h.engine]; rfl), buffer, elsewhere, others, fun k => ?_, fun _ => ends⟩
  rw [unwanted] at k
  cases k

/-- What an end of the frame, or its window, leaves of the decision. -/
theorem goodFrameAtRise_parts (s : State) (t : Trunk) :
    let d := (atTail s t).decideFrame t (frameOfOctets (s.engine t).buffer.octets)
    let v := s.goodFrameAtRise t
    v.director = d.1.director ∧ v.results = d.1.results ∧ v.regs = d.1.regs ∧ v.standby = d.1.standby := by
  intro d v
  have hv := goodFrameAtRise_eq s t
  dsimp only at hv
  show (s.goodFrameAtRise t).director = _ ∧ _
  rw [show v = s.goodFrameAtRise t from rfl, hv]
  split
  · exact ⟨rfl, rfl, rfl, rfl⟩
  · obtain ⟨_, _, _, director, results, regs, standby⟩ := foreignFrameEnds_over d.1 t
    exact ⟨director, results, regs, standby⟩

/-- The engine after the tail rise of a good frame, whatever the director has decided (R40, R41). -/
theorem goodFrameAtRise_answered {s : State} {t : Trunk} (st : (s.engine t).state = .receiving) :
    let g := frameOfOctets (s.engine t).buffer.octets
    let v := s.goodFrameAtRise t
    (v.engine t).level = .high ∧ (v.engine t).buffer.octets = [] ∧ SameElsewhere s v ∧ OtherTrunksSame s v t
      ∧ Answered s v t g ((atTail s t).decideFrame t g).2 := by
  intro g v
  have decided := decided_decideFrame s t g
  have hv := goodFrameAtRise_eq s t
  dsimp only at hv
  rw [show v = s.goodFrameAtRise t from rfl, hv]
  cases wanted : g.replyWanted with
  | true =>
    rw [if_pos rfl]
    exact answered_window decided st wanted _
  | false =>
    rw [if_neg Bool.false_ne_true]
    exact answered_ended decided wanted _

/-- The order counts only when a reply is wanted. -/
theorem answered_answerIf {s v : State} {t : Trunk} {g : GoodFrame} {o : AnswerOrder}
    (h : Answered s v t g (answerIf g.replyWanted o)) : Answered s v t g o := by
  refine ⟨fun wanted => ?_, h.2⟩
  have k := h.1 wanted
  rwa [wanted] at k

theorem exec_goodFrame {s : State} {t : Trunk} (st : (s.engine t).state = .receiving) (window : (s.engine t).window = none)
    (low : (s.engine t).level = .low) (drives : (s.engine t).drives = false) (lead : (s.engine t).buffer.leadTaken = true)
    (all : (s.engine t).buffer.complete = true) (sum : (s.engine t).buffer.sum = 255#8)
    (long : 5 * (s.engine t).timing.unit ≤ (s.engine t).edgeTime)
    (short : (s.engine t).edgeTime ≤ 15 * (s.engine t).timing.unit) :
    exec (.goodFrame t) s = .next (s.goodFrameAtRise t) := by
  have judged : (s.engine t).judgeEdge .high = .goodFrame := by
    rw [(judgeEdge_foreign st window).1, (judgeForeign_symbol lead).1, if_neg (by omega), all, Buffer.checkPasses, sum]
    rfl
  have differs : (s.engine t).level ≠ .high := by
    rw [low]
    decide
  have taken : s.takeEdge t .high = s.goodFrameAtRise t := by
    unfold State.takeEdge
    rw [judged]
  exact congrArg Host.Outcome.next ((edgeWith_of differs (fun _ => drives) judged).trans taken)

/-- Settles O42: the director decides on a good frame by address match, duplicate test, session state and queue, and the
engine answers as ordered. -/
theorem goodFrameDecided : Obligations.GoodFrameDecided := by
  intro s t e g l c group broadcast matched values known isOpen withTally answered st window low drives lead all sum long
    short
  obtain ⟨level, buffer, elsewhere, others, answers⟩ := goodFrameAtRise_answered (s := s) (t := t) st
  obtain ⟨director, results, regs, standby⟩ := goodFrameAtRise_parts s t
  refine ⟨_, exec_goodFrame st window low drives lead all sum long short, level, buffer, elsewhere, others, ?_⟩
  rw [director, results, regs, standby]
  have isKnown : (atTail s t).isDuplicate t g = true ↔ known := isDuplicate_iff (atTail s t) t g
  have noMatch : ((atTail s t).director.listen.get t).kindOf g.dest = .noMatch ↔ ¬ matched := kindOf_noMatch_iff l g.dest
  have opens : (atTail s t).queueOpen = true ↔ isOpen := queueOpen_iff (atTail s t)
  have fresh := fun (m : matched) (k : ¬ known) => decideFrame_fresh (s := atTail s t) (t := t) (g := g)
    (fun h => noMatch.1 h m) (Bool.eq_false_iff.2 fun h => k (isKnown.1 h))
  refine ⟨fun h => ?_, fun h => ?_, fun m k o room => ?_, fun m k o full => ?_, fun m k closed => ?_⟩
  · rw [decideFrame_noMatch (noMatch.2 h)] at answers ⊢
    exact ⟨rfl, rfl, rfl, rfl, answers⟩
  · rw [decideFrame_duplicate (isKnown.2 h)] at answers ⊢
    exact ⟨rfl, rfl, rfl, rfl, answered_answerIf answers⟩
  · have decided : (atTail s t).decideFrame t g = ((atTail s t).acceptFrame t g, answerIf g.replyWanted .accept) := by
      rw [fresh m k, if_pos (opens.2 o)]
      exact if_pos room
    rw [decided] at answers ⊢
    obtain ⟨runs, still, dups, same, wakes, asleep⟩ := acceptFrame_parts (atTail s t) t g
    have table := (joinedQueue_eq (atTail s t) t g)
    refine ⟨⟨(atTail s t).queuedFrame t g, rfl, rfl, rfl, rfl, rfl, rfl, rfl, rfl, ?_, ?_, ?_, ?_, rfl, runs, still⟩,
      fun own => ?_, fun other => ?_, same, answered_answerIf answers, wakes, asleep⟩
    · exact beq_iff_eq.trans (kindOf_broadcast_iff l g.dest)
    · exact beq_iff_eq.trans (kindOf_group_iff l g.dest)
    · exact beq_iff_eq
    · exact beq_iff_eq
    · rw [dups, table]
      dsimp only
      rw [if_pos (by exact own), get_set_same]
      rfl
    · rw [dups, table]
      exact if_neg other
  · have decided : (atTail s t).decideFrame t g
        = (((atTail s t).tally t Tally.addRefused).raise .starved, answerIf g.replyWanted .busy) := by
      rw [fresh m k, if_pos (opens.2 o)]
      exact if_neg (Nat.not_lt.2 full)
    rw [decided] at answers ⊢
    exact ⟨rfl, rfl, rfl, rfl, answered_answerIf answers⟩
  · have closed : ¬ isOpen := by
      have shut : (atTail s t).queueOpen = false := by
        unfold State.queueOpen
        rcases closed with h | h
        · rw [show (atTail s t).session.state = _ from h]
        · rw [show (atTail s t).session.state = _ from h]
      exact fun o => absurd (opens.2 o) (by rw [shut]; exact Bool.false_ne_true)
    have decided : (atTail s t).decideFrame t g
        = ((atTail s t).tally t Tally.addRefused, answerIf g.replyWanted .busy) := by
      rw [fresh m k, if_neg fun h => closed (opens.1 h)]
    rw [decided] at answers ⊢
    exact ⟨rfl, rfl, rfl, rfl, answered_answerIf answers⟩

end Sys2Proof.Proofs

/-! SUPPORT. The symbols that an attempt sends, as another station's receiver takes them (O44; R8 to R11, R39). -/

namespace Sys2Proof.Proofs

open Sys2Proof.Machine Sys2Proof.Laws Sys2Proof.Safety

/-! ### Numbers and their bits, most significant first -/

/-- One more bit of a number. -/
theorem div_pow_succ (x n : Nat) : 2 * (x / 2 ^ (n + 1)) + (x.testBit n).toNat = x / 2 ^ n := by
  rw [Nat.toNat_testBit, pow_succ, ← Nat.div_div_eq_div_mul]
  omega

/-- The first `m` of the `w` bits of a number spell what is left of it. -/
theorem foldl_testBit {x w : Nat} (small : x < 2 ^ w) {m : Nat} (hm : m ≤ w) :
    (List.range m).foldl (fun n j => 2 * n + (x.testBit (w - 1 - j)).toNat) 0 = x / 2 ^ (w - m) := by
  induction m with
  | zero => simp [Nat.div_eq_of_lt small]
  | succ m ih =>
    have next := div_pow_succ x (w - 1 - m)
    rw [show w - 1 - m + 1 = w - m by omega] at next
    rw [List.range_succ, List.foldl_append, ih (by omega), List.foldl_cons, List.foldl_nil, next,
      show w - (m + 1) = w - 1 - m by omega]

/-- Symbol `p` of the octets `bs` in line order (R10). -/
def symbolOf (bs : List Byte) (p : Nat) : Bool := (byteAt bs (p / 8)).getLsbD (7 - p % 8)

theorem symbolOf_octet (bs : List Byte) {q j : Nat} (hj : j < 8) :
    symbolOf bs (8 * q + j) = (byteAt bs q).toNat.testBit (7 - j) := by
  unfold symbolOf
  rw [show (8 * q + j) / 8 = q by omega, show (8 * q + j) % 8 = j by omega, BitVec.testBit_toNat]

/-- The first `r` symbols of octet `q`. -/
def symbolsOf (bs : List Byte) (q r : Nat) : List Bool := (List.range r).map (fun j => symbolOf bs (8 * q + j))

theorem symbolsOf_succ (bs : List Byte) (q r : Nat) :
    symbolsOf bs q (r + 1) = symbolsOf bs q r ++ [symbolOf bs (8 * q + r)] := by
  unfold symbolsOf
  rw [List.range_succ, List.map_append]
  rfl

theorem octetOfBits_symbolsOf (bs : List Byte) (q : Nat) {r : Nat} (hr : r ≤ 8) :
    octetOfBits (symbolsOf bs q r) = BitVec.ofNat 8 ((byteAt bs q).toNat / 2 ^ (8 - r)) := by
  have spelt : (List.range r).foldl (fun n j => 2 * n + (symbolOf bs (8 * q + j)).toNat) 0
      = (byteAt bs q).toNat / 2 ^ (8 - r) := by
    rw [← foldl_testBit (byteAt bs q).isLt hr]
    refine List.foldl_ext _ _ _ fun n j hj => ?_
    rw [symbolOf_octet bs (by have := List.mem_range.1 hj; omega)]
  unfold octetOfBits symbolsOf
  rw [List.foldl_map, spelt]

/-! ### The buffer that has taken the first symbols (R39) -/

/-- The buffer after the lead gap has taken the first `k` symbols of some octets. -/
def takenFrom (bs : List Byte) (k : Nat) : Buffer :=
  (List.range k).foldl (fun b p => b.push (symbolOf bs p)) { Buffer.cleared false with leadTaken := true }

theorem takenFrom_succ (bs : List Byte) (k : Nat) : takenFrom bs (k + 1) = (takenFrom bs k).push (symbolOf bs k) := by
  unfold takenFrom
  rw [List.range_succ, List.foldl_append]
  rfl

/-- What the buffer holds after `k` symbols: the whole octets, their sum, the symbols of the next, and the length once it
is known (R8, R39). -/
def Holds (bs : List Byte) (k : Nat) (b : Buffer) : Prop :=
  b.count = k ∧ b.octets = bs.take (k / 8) ∧ b.bits = symbolsOf bs (k / 8) (k % 8) ∧ b.sum = octetSum (bs.take (k / 8))
    ∧ b.length = if k ≤ 20 then none else some ((byteAt bs 2).toNat / 8)

theorem octetSum_concat (bs : List Byte) (x : Byte) : octetSum (bs ++ [x]) = octetSum bs + x := by
  unfold octetSum
  rw [List.foldl_append]
  rfl

theorem take_succ_byteAt {bs : List Byte} {q : Nat} (hq : q < bs.length) :
    bs.take (q + 1) = bs.take q ++ [byteAt bs q] := by
  unfold byteAt
  rw [List.take_add_one, List.getElem?_eq_getElem hq, List.getD_eq_getElem _ _ hq]
  rfl

/-- The length field is known with symbol 21 (R8). -/
theorem length_after {bs : List Byte} {k : Nat} {b : Buffer} (h : Holds bs k b) :
    (if b.count = 20 then some (octetOfBits (b.bits ++ [symbolOf bs k])).toNat else b.length)
      = if k + 1 ≤ 20 then none else some ((byteAt bs 2).toNat / 8) := by
  obtain ⟨count, _, bits, _, length⟩ := h
  rw [count, length, bits]
  by_cases k20 : k = 20
  · subst k20
    have five : symbolsOf bs (20 / 8) (20 % 8) ++ [symbolOf bs 20] = symbolsOf bs 2 5 := (symbolsOf_succ bs 2 4).symm
    have small : (byteAt bs 2).toNat / 2 ^ (8 - 5) < 2 ^ 8 := by
      have := (byteAt bs 2).isLt
      omega
    rw [five, octetOfBits_symbolsOf bs 2 (by omega), BitVec.toNat_ofNat, Nat.mod_eq_of_lt small]
    rfl
  · rw [if_neg k20]
    by_cases early : k ≤ 20
    · rw [if_pos early, if_pos (by omega)]
    · rw [if_neg early, if_neg (by omega)]

theorem holds_takenFrom {bs : List Byte} {k : Nat} (hk : k ≤ 8 * bs.length) : Holds bs k (takenFrom bs k) := by
  induction k with
  | zero => exact ⟨rfl, rfl, rfl, rfl, rfl⟩
  | succ k ih =>
    have h := ih (by omega)
    have known := length_after h
    obtain ⟨count, octets, bits, sum, _⟩ := h
    have place : k = 8 * (k / 8) + k % 8 := by omega
    have more : (takenFrom bs k).bits ++ [symbolOf bs k] = symbolsOf bs (k / 8) (k % 8 + 1) := by
      rw [bits, symbolsOf_succ, ← place]
    have size : (symbolsOf bs (k / 8) (k % 8 + 1)).length = k % 8 + 1 := by simp [symbolsOf]
    rw [takenFrom_succ]
    unfold Buffer.push
    dsimp only
    rw [known, more, size]
    by_cases last : k % 8 + 1 = 8
    · have octet : octetOfBits (symbolsOf bs (k / 8) (k % 8 + 1)) = byteAt bs (k / 8) := by
        rw [last, octetOfBits_symbolsOf bs _ (Nat.le_refl 8), Nat.sub_self, pow_zero, Nat.div_one, BitVec.ofNat_toNat,
          BitVec.setWidth_eq]
      have whole := take_succ_byteAt (bs := bs) (q := k / 8) (by omega)
      have row : (k + 1) / 8 = k / 8 + 1 := by omega
      rw [if_pos last, octet]
      refine ⟨congrArg (· + 1) count, ?_, ?_, ?_, rfl⟩
      · rw [row, whole, ← octets]
      · rw [show (k + 1) % 8 = 0 by omega]
        rfl
      · rw [row, whole, octetSum_concat, ← sum]
    · have row : (k + 1) / 8 = k / 8 := by omega
      rw [if_neg last]
      refine ⟨congrArg (· + 1) count, ?_, ?_, ?_, rfl⟩
      · rw [row, ← octets]
      · rw [row, show (k + 1) % 8 = k % 8 + 1 by omega]
      · rw [row, ← sum]

/-- A symbol that the buffer has taken. -/
theorem holds_symbol {bs : List Byte} {k p : Nat} {b : Buffer} (h : Holds bs k b) (hk : k ≤ 8 * bs.length) (hp : p < k) :
    b.symbol p = symbolOf bs p := by
  obtain ⟨_, octets, bits, _, _⟩ := h
  have size : b.octets.length = k / 8 := by
    rw [octets, List.length_take]
    omega
  unfold Buffer.symbol
  rw [size]
  by_cases whole : p / 8 < k / 8
  · rw [if_pos whole, octets]
    unfold symbolOf byteAt
    rw [List.getD_eq_getElem?_getD, List.getD_eq_getElem?_getD, List.getElem?_take_of_lt whole]
  · have row : p / 8 = k / 8 := by omega
    have here : p % 8 < (symbolsOf bs (k / 8) (k % 8)).length := by
      simp [symbolsOf]
      omega
    rw [if_neg whole, bits, List.getD_eq_getElem _ _ here]
    simp [symbolsOf]
    congr 1
    omega

/-- A field that lies within an octet, as the buffer spells it. -/
theorem holds_field {bs : List Byte} {k : Nat} {b : Buffer} (h : Holds bs k b) (hk : k ≤ 8 * bs.length) {q j width : Nat}
    (taken : 8 * q + j + width ≤ k) (within : j + width ≤ 8) :
    b.field (8 * q + j) width = (byteAt bs q).toNat % 2 ^ (8 - j) / 2 ^ (8 - j - width) := by
  have spelt := foldl_testBit (x := (byteAt bs q).toNat % 2 ^ (8 - j)) (Nat.mod_lt _ (Nat.two_pow_pos _))
    (m := width) (by omega)
  unfold Buffer.field
  rw [← spelt]
  refine List.foldl_ext _ _ _ fun n i hi => ?_
  have hi := List.mem_range.1 hi
  rw [holds_symbol h hk (by omega), Nat.add_assoc, symbolOf_octet bs (by omega), Nat.testBit_mod_two_pow,
    decide_eq_true (by omega), Bool.true_and, show 8 - j - 1 - i = 7 - (j + i) by omega]

/-! ### The octets of an attempt (R10, R11) -/

theorem octetSum_checked (bs : List Byte) : octetSum (bs ++ [checkOctet bs]) = 255#8 := by
  rw [octetSum_concat]
  exact add_sub_cancel _ _

theorem class_code_le (c : FrameClass) : c.code ≤ 2 := by
  cases c <;> decide

theorem octet1_toNat {c : FrameClass} {dest : Nat} (hd : dest ≤ 63) : (octet1 c dest).toNat = c.code * 64 + dest := by
  have := class_code_le c
  unfold octet1
  rw [BitVec.toNat_ofNat, Nat.mod_eq_of_lt (by omega)]

theorem octet2_toNat {source : Nat} (toggle wanted : Bool) (hs : source ≤ 63) :
    (octet2 source toggle wanted).toNat = source * 4 + toggle.toNat * 2 + wanted.toNat := by
  have := toggle.toNat_le
  have := wanted.toNat_le
  unfold octet2
  rw [BitVec.toNat_ofNat, Nat.mod_eq_of_lt (by omega)]

theorem octet3_toNat {length channel : Nat} (hl : length ≤ 24) (hc : channel ≤ 7) :
    (octet3 length channel).toNat = length * 8 + channel := by
  unfold octet3
  rw [BitVec.toNat_ofNat, Nat.mod_eq_of_lt (by omega)]

/-- The octets of an attempt of a copy: the header, the payload and the check (R10, R30). -/
theorem formAttempt_octets (s : State) (t : Trunk) (i : Nat) (c : SendCopy) :
    (s.formAttempt t i c).octets =
      let header := [octet1 c.cls c.dest, octet2 (s.director.listen.get t).own (s.toggle t c.dest) c.replyWanted,
        octet3 c.length c.channel]
      header ++ c.payload ++ [checkOctet (header ++ c.payload)] := rfl

theorem ofCode_code (c : FrameClass) : FrameClass.ofCode c.code = c := by
  cases c <;> rfl

theorem decide_toNat (b : Bool) : decide (b.toNat = 1) = b := by
  cases b <;> rfl

theorem byteAt_concat (l : List Byte) (x : Byte) : byteAt (l ++ [x]) l.length = x := by
  unfold byteAt
  simp

/-- The frame that the octets of an attempt spell is the one sent (R10). -/
theorem frameOfOctets_formAttempt {s : State} {t : Trunk} {i : Nat} {c : SendCopy} (hd : c.dest ≤ 63) (hc : c.channel ≤ 7)
    (hl : c.length ≤ 24) (hp : c.payload.length = c.length) (own : (s.director.listen.get t).own ≤ 62) :
    frameOfOctets (s.formAttempt t i c).octets =
      { cls := c.cls, dest := c.dest, source := (s.director.listen.get t).own, toggle := s.toggle t c.dest
        replyWanted := c.replyWanted, length := c.length, channel := c.channel, payload := c.payload
        check := (s.formAttempt t i c).check } := by
  have wanted := c.replyWanted.toNat_le
  have toggle := (s.toggle t c.dest).toNat_le
  have o1 := octet1_toNat (c := c.cls) hd
  have o2 := octet2_toNat (s.toggle t c.dest) c.replyWanted (show (s.director.listen.get t).own ≤ 63 by omega)
  have o3 := octet3_toNat hl hc
  have len : (octet3 c.length c.channel).toNat / 8 = c.length := by omega
  unfold frameOfOctets
  rw [formAttempt_octets]
  have b0 : ∀ (x y z : Byte) (l : List Byte), byteAt ([x, y, z] ++ l) 0 = x := fun _ _ _ _ => rfl
  have b1 : ∀ (x y z : Byte) (l : List Byte), byteAt ([x, y, z] ++ l) 1 = y := fun _ _ _ _ => rfl
  have b2 : ∀ (x y z : Byte) (l : List Byte), byteAt ([x, y, z] ++ l) 2 = z := fun _ _ _ _ => rfl
  simp only [List.append_assoc, b0, b1, b2, len, GoodFrame.mk.injEq]
  refine ⟨?_, ?_, ?_, ?_, ?_, trivial, ?_, ?_, ?_⟩
  · rw [o1, show (c.cls.code * 64 + c.dest) / 64 = c.cls.code by omega, ofCode_code]
  · omega
  · omega
  · rw [o2, show ((s.director.listen.get t).own * 4 + (s.toggle t c.dest).toNat * 2 + c.replyWanted.toNat) / 2 % 2
      = (s.toggle t c.dest).toNat by omega, decide_toNat]
  · rw [o2, show ((s.director.listen.get t).own * 4 + (s.toggle t c.dest).toNat * 2 + c.replyWanted.toNat) % 2
      = c.replyWanted.toNat by omega, decide_toNat]
  · omega
  · show List.take c.length (c.payload ++ _) = _
    rw [← hp, List.take_left]
  · have last := byteAt_concat ([octet1 c.cls c.dest, octet2 (s.director.listen.get t).own (s.toggle t c.dest) c.replyWanted,
      octet3 c.length c.channel] ++ c.payload) (s.formAttempt t i c).check
    rwa [show ([octet1 c.cls c.dest, octet2 (s.director.listen.get t).own (s.toggle t c.dest) c.replyWanted,
      octet3 c.length c.channel] ++ c.payload).length = 3 + c.length by simp [hp]; omega] at last

/-- Settles O44: a receiver that takes the symbols of an attempt has its octets, and finds no fault in them. -/
theorem sentFramesAreReceived : Obligations.SentFramesAreReceived := by
  intro s t i c hd hc hl hp own a taken
  have size : a.octets.length = 4 + c.length := by
    show (s.formAttempt t i c).octets.length = _
    rw [formAttempt_octets]
    simp [hp]
    omega
  have holds : ∀ k, k ≤ 32 + 8 * c.length → Holds a.octets k (taken k) := fun k hk => holds_takenFrom (by omega)
  have whole : a.octets.take ((32 + 8 * c.length) / 8) = a.octets := List.take_of_length_le (by omega)
  have b2 : (byteAt a.octets 2).toNat / 8 = c.length := by
    show (octet3 c.length c.channel).toNat / 8 = _
    rw [octet3_toNat hl hc]
    omega
  obtain ⟨_, octets, _, sum, _⟩ := holds (32 + 8 * c.length) (Nat.le_refl _)
  rw [whole] at octets sum
  refine ⟨octets, sum.trans (octetSum_checked _), fun k hk => ?_, fun k hk allowed => ?_,
    frameOfOctets_formAttempt hd hc hl hp own⟩
  · obtain ⟨count, _, _, _, length⟩ := holds k hk
    unfold Buffer.complete symbolCount
    rw [length, count, b2]
    by_cases early : k ≤ 20
    · rw [if_pos early]
      refine ⟨nofun, fun h => ?_⟩
      omega
    · rw [if_neg early]
      exact beq_iff_eq
  · rw [Bool.eq_false_iff, Ne, fieldError_iff]
    have field := fun {q j width : Nat} => holds_field (holds k hk) (by omega) (q := q) (j := j) (width := width)
    have count := (holds k hk).1
    have o1 : (byteAt a.octets 0).toNat = c.cls.code * 64 + c.dest := octet1_toNat hd
    have o2 : (byteAt a.octets 1).toNat
        = (s.director.listen.get t).own * 4 + (s.toggle t c.dest).toNat * 2 + c.replyWanted.toNat :=
      octet2_toNat _ _ (by omega)
    have code := class_code_le c.cls
    have toggle := (s.toggle t c.dest).toNat_le
    have wanted := c.replyWanted.toNat_le
    rw [count]
    rintro (⟨rfl, bad⟩ | ⟨rfl, bad⟩ | ⟨rfl, bad, asks⟩ | ⟨rfl, bad⟩)
    · have spelt := field (q := 0) (j := 0) (width := 2) (by omega) (by omega)
      rw [bad, o1] at spelt
      omega
    · have spelt := field (q := 1) (j := 0) (width := 6) (by omega) (by omega)
      rw [bad, o2] at spelt
      omega
    · have spelt := field (q := 0) (j := 2) (width := 6) (by omega) (by omega)
      rw [bad, o1] at spelt
      have asked : c.replyWanted = true := by
        rw [holds_symbol (holds 16 hk) (by omega) (by omega)] at asks
        have bit := (symbolOf_octet a.octets (q := 1) (j := 7) (by omega)).symm.trans asks
        rw [o2, Nat.sub_self, Nat.testBit_zero, decide_eq_true_eq] at bit
        rw [← decide_toNat c.replyWanted]
        exact decide_eq_true (by omega)
      exact allowed ⟨by omega, asked⟩
    · have spelt := field (q := 2) (j := 0) (width := 5) (by omega) (by omega)
      rw [show (taken 21).field 16 5 = _ from spelt] at bad
      omega

end Sys2Proof.Proofs

/-! SUPPORT. The sync window and the start of a lead (O14, O45; R29, R30, R88, R89, R166). -/

namespace Sys2Proof.Proofs

open Sys2Proof.Machine Sys2Proof.Laws Sys2Proof.Safety

/-! ### Something done for each trunk in turn -/

/-- A step on each trunk, trunk 0 first. -/
def inTurn (f : State → Trunk → State) (s : State) : State := f (f (f (f s 0) 1) 2) 3

/-- What `R` says of each step, where a step on a trunk leaves what `view` shows of the others: of the whole, and of the
states before and after each trunk's own step. -/
theorem inTurn_view {α : Type} {f : State → Trunk → State} {R : State → State → Prop} {view : State → Trunk → α}
    (refl : ∀ s, R s s) (trans : ∀ r s v, R r s → R s v → R r v) (step : ∀ s o, R s (f s o))
    (others : ∀ s t o, o ≠ t → view (f s t) o = view s o) (s : State) (o : Trunk) :
    ∃ r, R s r ∧ view r o = view s o ∧ R (f r o) (inTurn f s) ∧ view (inTurn f s) o = view (f r o) o := by
  have o0 := others s 0
  have o1 := others (f s 0) 1
  have o2 := others (f (f s 0) 1) 2
  have o3 := others (f (f (f s 0) 1) 2) 3
  have r0 := step s 0
  have r1 := step (f s 0) 1
  have r2 := step (f (f s 0) 1) 2
  have r3 := step (f (f (f s 0) 1) 2) 3
  unfold inTurn
  match o with
  | 0 =>
    exact ⟨s, refl s, rfl, trans _ _ _ (trans _ _ _ r1 r2) r3,
      by rw [o3 0 (by decide), o2 0 (by decide), o1 0 (by decide)]⟩
  | 1 => exact ⟨f s 0, r0, o0 1 (by decide), trans _ _ _ r2 r3, by rw [o3 1 (by decide), o2 1 (by decide)]⟩
  | 2 =>
    exact ⟨f (f s 0) 1, trans _ _ _ r0 r1, by rw [o1 2 (by decide), o0 2 (by decide)], r3, o3 2 (by decide)⟩
  | 3 =>
    exact ⟨f (f (f s 0) 1) 2, trans _ _ _ (trans _ _ _ r0 r1) r2,
      by rw [o2 3 (by decide), o1 3 (by decide), o0 3 (by decide)], refl _, rfl⟩

/-- The same of the engine and the list of a trunk. -/
theorem inTurn_trunk {f : State → Trunk → State} {R : State → State → Prop} (refl : ∀ s, R s s)
    (trans : ∀ r s v, R r s → R s v → R r v) (step : ∀ s o, R s (f s o)) (others : ∀ s o, OtherTrunksSame s (f s o) o)
    (s : State) (o : Trunk) :
    ∃ r, R s r ∧ r.engine o = s.engine o ∧ r.list o = s.list o ∧ R (f r o) (inTurn f s)
      ∧ (inTurn f s).engine o = (f r o).engine o ∧ (inTurn f s).list o = (f r o).list o := by
  obtain ⟨r, before, own, after, whole⟩ := inTurn_view (view := fun s o => (s.engine o, s.list o)) refl trans step
    (fun s t o ne => Prod.ext (others s t o ne).1 (others s t o ne).2) s o
  obtain ⟨engine, list⟩ := Prod.mk.inj own
  obtain ⟨engine', list'⟩ := Prod.mk.inj whole
  exact ⟨r, before, engine, list, after, engine', list'⟩

/-! ### The sync window (R88, R166) -/

/-- From `s` to `v` nothing but selections has come about. -/
def SelectsOnly (s v : State) : Prop :=
  v = { s with engines := v.engines, sched := { s.sched with lists := v.sched.lists } }

theorem selectsOnly_refl (s : State) : SelectsOnly s s := rfl

theorem selectsOnly_trans (r s v : State) (h : SelectsOnly r s) (k : SelectsOnly s v) : SelectsOnly r v := by
  unfold SelectsOnly at h k ⊢
  rw [h] at k
  exact k

theorem selectInWindow_cases (s : State) (t : Trunk) :
    (s.sched.windowMode.get t = true ∧ s.session.state ≠ .standby ∧ s.selectInWindow t = s.select t)
      ∨ ((s.sched.windowMode.get t = false ∨ s.session.state = .standby) ∧ s.selectInWindow t = s) := by
  unfold State.selectInWindow
  by_cases h : s.sched.windowMode.get t = true ∧ s.session.state ≠ .standby
  · exact .inl ⟨h.1, h.2, if_pos (by simp [h])⟩
  · refine .inr ⟨?_, if_neg (by simpa using h)⟩
    by_cases m : s.sched.windowMode.get t = true
    · exact .inr (not_not.1 fun k => h ⟨m, k⟩)
    · exact .inl (Bool.eq_false_iff.2 m)

theorem selectInWindow_only (s : State) (t : Trunk) : SelectsOnly s (s.selectInWindow t) := by
  rcases selectInWindow_cases s t with ⟨_, _, h⟩ | ⟨_, h⟩
  · rw [h]
    exact select_eq s t
  · rw [h]
    exact selectsOnly_refl s

theorem selectInWindow_others (s : State) (t : Trunk) : OtherTrunksSame s (s.selectInWindow t) t := by
  rcases selectInWindow_cases s t with ⟨_, _, h⟩ | ⟨_, h⟩
  · rw [h]
    exact (sendsOn_select s t).others
  · rw [h]
    exact fun _ _ => ⟨rfl, rfl⟩

/-- Selection is a matter of the trunk's engine and list, the session and the window mode (R87, R88). -/
theorem selected_congr {s v : State} {t : Trunk} (h : Selected s t) (engine : v.engine t = s.engine t)
    (list : v.list t = s.list t) (window : v.session.window = s.session.window)
    (windowMode : v.sched.windowMode.get t = s.sched.windowMode.get t) :
    Selected v t := by
  have same : v.eligible t = s.eligible t := by
    funext x
    unfold State.eligible State.fitsWindow State.worstCaseMicros
    rw [window, windowMode, engine]
  unfold Selected
  rw [engine, list, same]
  exact h

/-- A sync edge, for one trunk: the selection is made on its engine and its list as they were. -/
theorem syncEdge_trunk (s : State) (o : Trunk) :
    ∃ r, SelectsOnly s.openSyncWindow r ∧ r.engine o = s.engine o ∧ r.list o = s.list o
      ∧ SelectsOnly (r.selectInWindow o) (inTurn State.selectInWindow s.openSyncWindow)
      ∧ (inTurn State.selectInWindow s.openSyncWindow).engine o = (r.selectInWindow o).engine o
      ∧ (inTurn State.selectInWindow s.openSyncWindow).list o = (r.selectInWindow o).list o :=
  inTurn_trunk selectsOnly_refl selectsOnly_trans selectInWindow_only selectInWindow_others s.openSyncWindow o

theorem inTurn_only (s : State) : SelectsOnly s (inTurn State.selectInWindow s) :=
  selectsOnly_trans _ _ _ (selectsOnly_trans _ _ _ (selectsOnly_trans _ _ _ (selectInWindow_only s 0)
    (selectInWindow_only _ 1)) (selectInWindow_only _ 2)) (selectInWindow_only _ 3)

/-- Where no selection is made for any trunk, a sync edge opens the window alone. -/
theorem inTurn_none {s : State} (h : ∀ o : Trunk, s.selectInWindow o = s) : inTurn State.selectInWindow s = s := by
  unfold inTurn
  rw [h 0, h 1, h 2, h 3]

/-- Settles O14: a sync edge opens the window and is a selection for the trunks in window mode; spent, it closes. -/
theorem syncWindow : Obligations.SyncWindow := by
  intro s
  have only := inTurn_only s.openSyncWindow
  have trunk := syncEdge_trunk s
  have none : s.schedulerLive = false ∨ s.session.state = .standby →
      inTurn State.selectInWindow s.openSyncWindow = s.openSyncWindow := by
    intro off
    refine inTurn_none fun o => ?_
    rcases selectInWindow_cases s.openSyncWindow o with ⟨_, live, h⟩ | ⟨_, h⟩
    · rw [h]
      refine select_frozen fun k => ?_
      rcases off with dead | standby
      · exact absurd (dead.symm.trans k.1) Bool.false_ne_true
      · exact live standby
    · exact h
  refine ⟨⟨inTurn State.selectInWindow s.openSyncWindow, rfl, ?_⟩, fun spent => ?_⟩
  · generalize inTurn State.selectInWindow s.openSyncWindow = t at only trunk none
    unfold SelectsOnly at only
    have session : t.session = { s.session with window := some (10 * s.session.windowLength) } := by
      rw [only]
      rfl
    refine ⟨session, fun o off => ?_, fun o on live awake takes => ?_, fun off => ?_, ?_, ?_, ?_, ?_, ?_, ?_, ?_, ?_⟩
    · obtain ⟨r, before, engine, list, _, engine', list'⟩ := trunk o
      have mode : r.sched.windowMode = s.sched.windowMode := by
        rw [before]
        rfl
      have idle : r.selectInWindow o = r := by
        rcases selectInWindow_cases r o with ⟨h, _⟩ | ⟨_, h⟩
        · rw [mode, off] at h
          cases h
        · exact h
      rw [engine', list', idle]
      exact ⟨engine, list⟩
    · obtain ⟨r, before, engine, list, after, engine', list'⟩ := trunk o
      have mode : r.sched.windowMode = s.sched.windowMode := by
        rw [before]
        rfl
      have state : r.session.state = s.session.state := by
        rw [before]
        rfl
      have chosen : r.selectInWindow o = r.select o := by
        rcases selectInWindow_cases r o with ⟨_, _, h⟩ | ⟨h, _⟩
        · exact h
        · rw [mode, on, state] at h
          exact absurd (h.resolve_left Bool.noConfusion) awake
      have alive : r.schedulerLive = true := by
        rw [State.schedulerLive, state]
        exact live
      rw [chosen] at after engine' list'
      exact selected_congr (select_selected alive (by rw [engine]; exact takes)) engine' list' (by rw [after]) (by rw [after])
    · rw [none off]
      exact ⟨rfl, rfl⟩
    · rw [only]
      rfl
    · rw [only]
      rfl
    · rw [only]
      rfl
    · rw [only]
      rfl
    · rw [only]
      exact ⟨rfl, rfl, rfl, rfl, rfl⟩
    · rw [only]
      rfl
    · rw [only]
      rfl
    · rw [only]
      rfl
  · exact congrArg Host.Outcome.next (if_pos (by unfold State.windowSpent; rw [spent]; rfl))

/-! ### Eligibility and the hold time (R29, R87) -/

theorem fitsWindow_iff (s : State) (t : Trunk) (c : SendCopy) : s.fitsWindow t c = true ↔
    ∃ left, s.session.window = some left
      ∧ (141 + 32 * c.length + 9 * c.replyWanted.toNat) * (10 * (s.engine t).timing.unit) ≤ left := by
  unfold State.fitsWindow State.worstCaseMicros worstCaseUnits Engine.unitMicros
  cases s.session.window <;> simp

theorem eligible_iff (s : State) (t : Trunk) (x : Entry) : s.eligible t x = true ↔ Eligible s t x := by
  unfold State.eligible Eligible
  rw [Bool.and_eq_true, Bool.and_eq_true, Bool.or_eq_true, Bool.or_eq_true, Bool.or_eq_true, fitsWindow_iff]
  simp only [beq_iff_eq, Bool.not_eq_true', and_assoc, or_assoc]

theorem takesArming_iff (e : Engine) : e.takesArming = true ↔ e.mode = .active ∧ e.pendingOff = false := by
  unfold Engine.takesArming
  simp

theorem holdReached_iff (e : Engine) : e.holdReached = true ↔
    e.state = .holding ∧ e.mode = .active ∧ e.pendingOff = false
      ∧ ∃ m, e.armed = some m ∧ m.holdUnits * (10 * e.timing.unit) ≤ e.holdClock := by
  unfold Engine.holdReached Engine.unitMicros
  rw [Bool.and_eq_true, Bool.and_eq_true, takesArming_iff, beq_iff_eq, and_assoc, and_assoc]
  cases e.armed <;> simp

theorem holdDue_iff (s : State) (t : Trunk) : s.holdDue t = true ↔
    s.session.state = .running ∧ (s.engine t).holdReached = true := by
  unfold State.holdDue
  rw [Bool.and_eq_true, beq_iff_eq]

theorem exec_holdExpiry_due {s : State} {t : Trunk} (due : s.holdDue t = true) :
    exec (.holdExpiry t) s = .next (s.holdExpires t) := congrArg Host.Outcome.next (if_pos due)

/-! ### The start of a lead (R30, R89, R90) -/

theorem findEntry_index {s : State} {t : Trunk} {i : Nat} {x : Entry} (h : s.findEntry t i = some x) : x.index = i := by
  have := List.find?_some h
  simpa using this

theorem findEntry_mem {s : State} {t : Trunk} {i : Nat} {x : Entry} (h : s.findEntry t i = some x) : x ∈ s.list t :=
  List.mem_of_find?_eq_some h

theorem confirmed_some {s : State} {t : Trunk} {m : Armed} {x : Entry} (armed : (s.engine t).armed = some m)
    (found : s.findEntry t m.index = some x) (ok : s.eligible t x = true) : s.confirmed t = some x := by
  unfold State.confirmed State.armedEntry
  simp only [armed, found]
  exact if_pos ok

theorem confirmed_none {s : State} {t : Trunk} {m : Armed} {x : Entry} (armed : (s.engine t).armed = some m)
    (found : s.findEntry t m.index = some x) (not : ¬ s.eligible t x = true) : s.confirmed t = none := by
  unfold State.confirmed State.armedEntry
  simp only [armed, found]
  exact if_neg not

theorem startLead_list (s : State) (t : Trunk) (x : Entry) :
    (s.startLead t x).list t = (s.list t).map (fun y => if y.index = x.index then inFlightOf y else y) :=
  list_setList_same s t _

theorem startLead_engine (s : State) (t : Trunk) (x : Entry) :
    (s.startLead t x).engine t = (s.engine t).beginLead (s.formAttempt t x.index x.copy) :=
  engine_setEngine_same _ t _

/-- The octets of the attempt that starts are those of R10, with the check of R11. -/
theorem startLead_leads {s u : State} {t : Trunk} {x : Entry} (engine : (s.startLead t x).engine t =
      { u.engine t with
        state := .sending .lead, pulse := .mark 0, holdClock := 0, buffer := Buffer.cleared true, armed := none
        attempt := some (s.formAttempt t x.index x.copy), reply := .unset, candidate := false })
    (listen : s.director.listen = u.director.listen) (toggles : s.sched.toggles = u.sched.toggles) :
    LeadStarted u (s.startLead t x) t x := by
  refine ⟨s.formAttempt t x.index x.copy, engine, rfl, rfl, rfl, rfl, rfl, rfl, rfl, ?_, ?_, ?_, ?_, ?_, ?_, rfl⟩
  · rw [← listen]
    rfl
  · rw [← toggles]
    rfl
  · show octet1 _ _ = _
    rw [octet1, Nat.mul_comm]
    rfl
  · show octet2 _ _ _ = _
    rw [octet2, Nat.mul_comm _ 4, Nat.mul_comm _ 2]
    rfl
  · show octet3 _ _ = _
    rw [octet3, Nat.mul_comm]
    rfl
  · exact octetSum_checked _

/-- What starts a lead leaves alone. -/
theorem startLead_rest (s : State) (t : Trunk) (x : Entry) :
    OtherTrunksSame s (s.startLead t x) t ∧ SameOutsideTrunks s (s.startLead t x) := by
  have entry := sendsOn_updateEntry t s x.index (f := Entry.started) fun _ => rfl
  refine ⟨fun o ne => ⟨?_, (entry.others o ne).2⟩, keeps_startLead s t x, rfl, rfl, rfl⟩
  exact (engine_setEngine_other _ t o _ ne).trans (entry.others o ne).1

/-- A withdrawal and a selection leave alone what another trunk, and what is outside the trunks, holds. -/
theorem withdrawSelect_rest (s : State) (t : Trunk) :
    OtherTrunksSame s ((s.withdraw t).select t) t ∧ SameOutsideTrunks s ((s.withdraw t).select t)
      ∧ ((s.withdraw t).select t).sched.toggles = s.sched.toggles := by
  have h := sendsOn_trans (sendsOn_withdraw s t) (sendsOn_select (s.withdraw t) t)
  have withdrawn : (s.withdraw t).results = s.results ∧ (s.withdraw t).sched.toggles = s.sched.toggles := by
    unfold State.withdraw
    split
    · exact ⟨rfl, rfl⟩
    · exact ⟨rfl, rfl⟩
  refine ⟨h.others, ⟨h.elsewhere, h.regs, ?_, h.director⟩, ?_⟩
  · exact (select_rest _ t).1.trans withdrawn.1
  · rw [(select_rest _ t).2]
    exact withdrawn.2

theorem unarmed_eq : unarmed = Entry.disarmed := rfl

/-- The state after the withdrawal of a holding engine's armed entry (R28). -/
theorem withdraw_holding {s : State} {t : Trunk} {m : Armed} (st : (s.engine t).state = .holding)
    (armed : (s.engine t).armed = some m) :
    (s.withdraw t).engine t = { s.engine t with armed := none, state := .idle }
      ∧ (s.withdraw t).list t = (s.list t).map unarmed := by
  rw [withdraw_of_some armed]
  refine ⟨?_, list_setList_same _ t _⟩
  rw [engine_setList, engine_setEngine_same, Engine.withdraw, if_pos st]

/-- Nothing else is eligible: the armed entry is withdrawn, and that is all (R89). -/
theorem withdrawSelect_none {s : State} {t : Trunk} (none : ∀ y ∈ s.list t, ¬ s.eligible t y = true) :
    (s.withdraw t).select t = s.withdraw t := by
  by_cases on : (s.withdraw t).schedulerLive = true ∧ ((s.withdraw t).engine t).takesArming = true
  · have empty : ((s.withdraw t).list t).find? ((s.withdraw t).eligible t) = Option.none := by
      rw [(sendsOn_withdraw s t).eligible]
      refine withdraw_find (List.find?_eq_none.2 none)
    rcases select_cases on.1 on.2 with ⟨_, h⟩ | ⟨e, found, _⟩
    · rw [h, withdraw_of_none (withdraw_armed s t)]
    · rw [empty] at found
      cases found
  · exact select_frozen on

/-- The first eligible entry is armed in place of the one withdrawn (R88, R89). -/
theorem withdrawSelect_some {s : State} {t : Trunk} {y : Entry} (live : s.schedulerLive = true)
    (takes : (s.engine t).takesArming = true) (found : (s.list t).find? (s.eligible t) = some y)
    (armed : (s.engine t).armed ≠ none) :
    (s.withdraw t).select t = (s.withdraw t).armEntry t y.disarmed := by
  have w := sendsOn_withdraw s t
  have live' : (s.withdraw t).schedulerLive = true := by
    rw [State.schedulerLive, w.session]
    exact live
  have takes' : ((s.withdraw t).engine t).takesArming = true := by
    rw [w.engine.1]
    exact takes
  obtain ⟨m, hm⟩ := Option.ne_none_iff_exists'.1 armed
  have found' : ((s.withdraw t).list t).find? ((s.withdraw t).eligible t) = some y.disarmed := by
    rw [w.eligible, withdraw_of_some hm, list_setList_same, List.find?_map]
    have same : s.eligible t ∘ Entry.disarmed = s.eligible t := funext (eligible_disarmed s t)
    rw [same, found]
    rfl
  rcases select_cases live' takes' with ⟨none, _⟩ | ⟨e, one, ⟨was, _⟩ | ⟨_, h⟩⟩
  · rw [none] at found'
    cases found'
  · rw [withdraw_armed] at was
    cases was
  · rw [found'] at one
    cases one
    exact h

theorem disarmed_retry (x : Entry) : x.disarmed.retry = x.retry := by
  unfold Entry.disarmed
  split <;> rfl

theorem disarmed_with_condition (x : Entry) (c : Condition) :
    { x.disarmed with condition := c } = { x with condition := c } := by
  unfold Entry.disarmed
  split <;> rfl

theorem disarmed_disarmed (x : Entry) : x.disarmed.disarmed = x.disarmed := by
  unfold Entry.disarmed
  split
  · rfl
  · rfl

/-- An entry of the list once another has been armed in place of one withdrawn. -/
def rearmedFor (i : Nat) (z : Entry) : Entry := if z.index = i then { z with condition := .armed } else unarmed z

theorem rearmedEntry_unarmed (i : Nat) (z : Entry) : rearmedEntry i (unarmed z) = rearmedFor i z := by
  unfold rearmedEntry rearmedFor
  rw [unarmed_eq, disarmed_disarmed, disarmed_index, disarmed_with_condition]

/-- The arming of another entry on an engine that held (R28, R89). -/
theorem armInstead {s : State} {t : Trunk} {m : Armed} (st : (s.engine t).state = .holding)
    (armed : (s.engine t).armed = some m) (y : Entry) :
    let v := (s.withdraw t).armEntry t y.disarmed
    v.engine t =
        { s.engine t with
          armed := some
            { index := y.index, cls := y.copy.cls, retry := y.retry
              holdUnits := holdUnits (s.engine t).timing.hold y.copy.cls y.retry } }
      ∧ v.list t = (s.list t).map (rearmedFor y.index) := by
  obtain ⟨engine, list⟩ := withdraw_holding st armed
  intro v
  have arms : v.engine t = ((s.withdraw t).engine t).arm y.index y.copy.cls y.retry := by
    rw [armEntry_engine, disarmed_index, disarmed_copy, disarmed_retry]
  refine ⟨?_, ?_⟩
  · rw [arms, engine]
    show ({ s.engine t with armed := some _, state := EngineState.holding } : Engine) = _
    rw [← st]
  · rw [armEntry_list, list, List.map_map, disarmed_index]
    exact List.map_congr_left fun z _ => rearmedEntry_unarmed y.index z

/-- The entry of an index after a map that keeps indices. -/
theorem find_index_map {f : Entry → Entry} (index : ∀ z, (f z).index = z.index) (l : List Entry) (i : Nat) :
    (l.map f).find? (fun z => z.index == i) = (l.find? (fun z => z.index == i)).map f := by
  rw [List.find?_map]
  have same : (fun z : Entry => z.index == i) ∘ f = fun z => z.index == i := by
    funext z
    rw [Function.comp_apply, index]
  rw [same]

theorem rearmedFor_index (i : Nat) (z : Entry) : (rearmedFor i z).index = z.index := by
  unfold rearmedFor
  split
  · rfl
  · exact disarmed_index z

/-- The lead of an entry armed in place of another withdraws nothing more (R89). -/
theorem armInstead_confirmed {s : State} {t : Trunk} {m : Armed} (st : (s.engine t).state = .holding)
    (armed : (s.engine t).armed = some m) {y : Entry} (found : s.findEntry t y.index = some y)
    (ok : s.eligible t y = true) :
    ((s.withdraw t).armEntry t y.disarmed).confirmed t = some { y with condition := .armed } := by
  obtain ⟨engine, list⟩ := armInstead st armed y
  have sends := sendsOn_trans (sendsOn_withdraw s t) (sendsOn_armEntry (s.withdraw t) t y.disarmed)
  refine confirmed_some (by rw [engine]) ?_ ?_
  · unfold State.findEntry at found ⊢
    rw [list, find_index_map (rearmedFor_index y.index), found]
    exact congrArg some (if_pos rfl)
  · rw [sends.eligible]
    exact eligible_armed ok

/-- Settles O45: hold expiry starts the lead of the armed entry while it is eligible; else another is selected. -/
theorem leadStarts : Obligations.LeadStarts := by
  refine ⟨fun s t => ?_, fun s t m x => ?_⟩
  · intro e not
    refine congrArg Host.Outcome.next (if_neg fun due => ?_)
    obtain ⟨run, reached⟩ := (holdDue_iff s t).1 due
    obtain ⟨st, mode, off, m, armed, hold⟩ := (holdReached_iff _).1 reached
    rcases not with h | h | h | h | h | ⟨k, h, early⟩
    · exact h run
    · exact h st
    · exact h mode
    · exact Bool.false_ne_true (off.symm.trans h)
    · exact Option.some_ne_none m (armed.symm.trans h)
    · cases armed.symm.trans h
      exact Nat.not_le.2 early hold
  · intro e run st mode off armed hold found
    have ran := exec_holdExpiry_due ((holdDue_iff s t).2
      ⟨run, (holdReached_iff _).2 ⟨st, mode, off, m, armed, hold⟩⟩)
    have live : s.schedulerLive = true := by
      rw [State.schedulerLive, run]
    have takes : e.takesArming = true := (takesArming_iff e).2 ⟨mode, off⟩
    refine ⟨fun ok => ?_, fun not none => ?_, fun y before after not split first ok single => ?_⟩
    · have lead : s.holdExpires t = s.startLead t x := by
        unfold State.holdExpires
        rw [confirmed_some armed found ((eligible_iff s t x).2 ok)]
      obtain ⟨others, rest⟩ := startLead_rest s t x
      exact ⟨_, ran.trans (congrArg _ lead), startLead_leads (startLead_engine s t x) rfl rfl, others, rest,
        startLead_list s t x⟩
    · have again := withdrawSelect_none fun y hy k => none y hy ((eligible_iff s t y).1 k)
      obtain ⟨engine, list⟩ := withdraw_holding st armed
      have idle : s.holdExpires t = s.withdraw t := by
        unfold State.holdExpires
        rw [confirmed_none armed found fun k => not ((eligible_iff s t x).1 k)]
        dsimp only
        rw [again, if_neg]
        intro due
        obtain ⟨_, _, _, k, armed', _⟩ := (holdReached_iff _).1 ((holdDue_iff _ t).1 due).2
        rw [engine] at armed'
        cases armed'
      obtain ⟨others, rest, _⟩ := withdrawSelect_rest s t
      rw [again] at others rest
      exact ⟨_, ran.trans (congrArg _ idle), others, rest, engine, list⟩
    · intro units
      have chosen : (s.list t).find? (s.eligible t) = some y := by
        rw [split, List.find?_append, List.find?_eq_none.2 fun z hz k => first z hz ((eligible_iff s t z).1 k),
          Option.none_or, List.find?_cons, (eligible_iff s t y).2 ok]
      have again := withdrawSelect_some live takes chosen (by rw [show (s.engine t).armed = _ from armed]; exact nofun)
      obtain ⟨engine, list⟩ := armInstead st armed y
      obtain ⟨others, rest, toggles⟩ := withdrawSelect_rest s t
      have expires : s.holdExpires t =
          if ((s.withdraw t).armEntry t y.disarmed).holdDue t then
            ((s.withdraw t).armEntry t y.disarmed).startLead t { y with condition := .armed }
          else (s.withdraw t).armEntry t y.disarmed := by
        unfold State.holdExpires
        rw [confirmed_none armed found fun k => not ((eligible_iff s t x).1 k)]
        dsimp only
        rw [again, armInstead_confirmed st armed single ((eligible_iff s t y).2 ok)]
      rw [again] at others rest toggles
      have same : ((s.withdraw t).armEntry t y.disarmed).session = s.session := rest.1.1.2.1
      have director : ((s.withdraw t).armEntry t y.disarmed).director = s.director := rest.2.2.2
      generalize (s.withdraw t).armEntry t y.disarmed = r at *
      have due : r.holdDue t = true ↔ units * (10 * e.timing.unit) ≤ e.holdClock := by
        rw [holdDue_iff, holdReached_iff, same, engine]
        refine ⟨fun ⟨_, _, _, _, k, armed', h⟩ => ?_, fun h => ⟨run, st, mode, off, _, rfl, h⟩⟩
        cases armed'
        exact h
      obtain ⟨leadOthers, leadRest⟩ := startLead_rest r t { y with condition := .armed }
      by_cases h : units * (10 * e.timing.unit) ≤ e.holdClock
      · rw [if_pos (due.2 h)] at expires
        refine ⟨_, ran.trans (congrArg _ expires), fun o ne => ?_, ?_, fun _ => ⟨?_, ?_⟩, fun k => absurd h (Nat.not_le.2 k)⟩
        · exact ⟨(leadOthers o ne).1.trans (others o ne).1, (leadOthers o ne).2.trans (others o ne).2⟩
        · exact ⟨keeps_trans rest.1 leadRest.1, leadRest.2.1.trans rest.2.1, leadRest.2.2.1.trans rest.2.2.1,
            leadRest.2.2.2.trans rest.2.2.2⟩
        · refine startLead_leads (x := { y with condition := .armed }) ?_ (congrArg _ director) toggles
          rw [startLead_engine, engine]
          rfl
        · rw [startLead_list, list, List.map_map]
          refine List.map_congr_left fun z _ => ?_
          rw [Function.comp_apply, rearmedFor_index]
          unfold rearmedFor
          by_cases hz : z.index = y.index
          · rw [if_pos (by exact hz), if_pos hz, if_pos hz]
            rfl
          · rw [if_neg (by exact hz), if_neg hz, if_neg hz]
      · rw [if_neg fun k => h (due.1 k)] at expires
        exact ⟨_, ran.trans (congrArg _ expires), others, rest, fun k => absurd k h, fun _ => ⟨engine, list⟩⟩

end Sys2Proof.Proofs

/-! SUPPORT. Due times, the joining of rounds, and how a round's outcome reaches the repeat table (O54; R109 to R114, R140). -/

namespace Sys2Proof.Proofs

open Sys2Proof.Machine Sys2Proof.Laws Sys2Proof.Safety

/-! ### The place of a round result in the completion queue (R140) -/

theorem isRoundOf_iff (i : Nat) (w : Work) : w.isRoundOf i = true ↔ ∃ old, w = .round i old := by
  cases w with
  | round j x =>
    refine ⟨fun h => ⟨x, ?_⟩, fun ⟨old, h⟩ => ?_⟩
    · rw [show j = i by simpa [Work.isRoundOf] using h]
    · cases h
      simp [Work.isRoundOf]
  | done j x => exact ⟨nofun, nofun⟩
  | rejected j x => exact ⟨nofun, nofun⟩

/-- No round result of an index stands in a queue. -/
def NoRound (i : Nat) (l : List Work) : Prop := ∀ old, Work.round i old ∉ l

theorem isRoundOf_of_noRound {i : Nat} {w : Work} {ws : List Work} (h : NoRound i (w :: ws)) :
    w.isRoundOf i = false ∧ NoRound i ws := by
  refine ⟨Bool.eq_false_iff.2 fun k => ?_, fun old k => h old (List.mem_cons_of_mem w k)⟩
  obtain ⟨old, rfl⟩ := (isRoundOf_iff i w).1 k
  exact h old List.mem_cons_self

theorem placeRound_none {i : Nat} {r : SendResult} {l : List Work} (h : NoRound i l) :
    placeRound i r l = l ++ [.round i r] := by
  induction l with
  | nil => rfl
  | cons w ws ih =>
    obtain ⟨other, rest⟩ := isRoundOf_of_noRound h
    rw [placeRound, other, if_neg Bool.false_ne_true, ih rest]
    rfl

theorem placeRound_some {i : Nat} {r old : SendResult} {before after : List Work} (h : NoRound i before) :
    placeRound i r (before ++ .round i old :: after) = before ++ .round i r :: after := by
  induction before with
  | nil =>
    rw [List.nil_append, placeRound, if_pos ((isRoundOf_iff i _).2 ⟨old, rfl⟩)]
    rfl
  | cons w ws ih =>
    obtain ⟨other, rest⟩ := isRoundOf_of_noRound h
    rw [List.cons_append, placeRound, other, if_neg Bool.false_ne_true, ih rest]
    rfl

theorem frontGranted_iff (s : State) : s.frontGranted = true ↔ FrontInHand s := by
  unfold State.frontGranted FrontInHand
  cases s.port.unit with
  | none => simp
  | some u =>
    rcases u with ⟨kind, access, timer, rest, data⟩
    cases kind <;> simp

/-- Where the front of the queue is not in hand, a round result takes the place of an earlier one anywhere (R140). -/
theorem queueWithRound_free {s : State} (h : ¬ FrontInHand s) (i : Nat) (r : SendResult) :
    s.queueWithRound i r = placeRound i r s.results.queue := by
  unfold State.queueWithRound
  cases s.results.queue with
  | nil => rfl
  | cons w ws => exact if_neg fun k => h ((frontGranted_iff s).1 k)

/-- Where the front of the queue is in hand, it is not replaced (R140; log 20). -/
theorem queueWithRound_inHand {s : State} (h : FrontInHand s) {w : Work} {ws : List Work} (queue : s.results.queue = w :: ws)
    (i : Nat) (r : SendResult) : s.queueWithRound i r = w :: placeRound i r ws := by
  unfold State.queueWithRound
  rw [queue]
  exact if_pos ((frontGranted_iff s).2 h)

theorem queueWithRound_none {s : State} {i : Nat} (h : NoRound i s.results.queue) (r : SendResult) :
    s.queueWithRound i r = s.results.queue ++ [.round i r] := by
  by_cases front : FrontInHand s
  · cases queue : s.results.queue with
    | nil =>
      unfold State.queueWithRound
      rw [queue]
      rfl
    | cons w ws =>
      rw [queue] at h
      rw [queueWithRound_inHand front queue, placeRound_none (isRoundOf_of_noRound h).2]
      rfl
  · rw [queueWithRound_free front, placeRound_none h]

theorem queueWithRound_replaces {s : State} {i : Nat} {old : SendResult} {before after : List Work}
    (queue : s.results.queue = before ++ .round i old :: after) (h : NoRound i before)
    (free : before ≠ [] ∨ ¬ FrontInHand s) (r : SendResult) :
    s.queueWithRound i r = before ++ .round i r :: after := by
  by_cases front : FrontInHand s
  · cases before with
    | nil => exact absurd front (free.resolve_left fun k => k rfl)
    | cons w ws =>
      rw [queueWithRound_inHand front queue]
      exact congrArg (w :: ·) (placeRound_some (isRoundOf_of_noRound h).2)
  · rw [queueWithRound_free front, queue, placeRound_some h]

theorem queueWithRound_behind {s : State} {i : Nat} {old : SendResult} {after : List Work}
    (queue : s.results.queue = .round i old :: after) (h : NoRound i after) (front : FrontInHand s) (r : SendResult) :
    s.queueWithRound i r = .round i old :: after ++ [.round i r] := by
  rw [queueWithRound_inHand front queue, placeRound_none h]
  rfl

theorem queueWithRound_second {s : State} {i : Nat} {x old : SendResult} {before after : List Work}
    (queue : s.results.queue = .round i x :: before ++ .round i old :: after) (h : NoRound i before)
    (front : FrontInHand s) (r : SendResult) :
    s.queueWithRound i r = .round i x :: before ++ .round i r :: after := by
  rw [queueWithRound_inHand front queue]
  exact congrArg (Work.round i x :: ·) (placeRound_some h)

/-! ### The outcome of a round (R112, R114) -/

/-- The state with another repeat table and another completion queue. -/
def withTables (s : State) (repeats : List RepeatEntry) (queue : List Work) : State :=
  { s with sched := { s.sched with repeats := repeats }, results := { s.results with queue := queue } }

theorem endRepeat_eq (s : State) (r : RepeatEntry) (code : ResultCode) (g : Figures) (stamp : Word) :
    s.endRepeat r code g stamp =
      withTables s (s.sched.repeats.filter (fun x => x.index != r.index))
        (s.results.queue
          ++ [.done r.index
              { outcome := code, last := g.last, attempts := g.attempts, losses := g.losses, stamp := stamp
                repeats := r.count, overruns := r.overruns }]) := rfl

theorem findRepeat_index {s : State} {i : Nat} {r : RepeatEntry} (h : s.findRepeat i = some r) : r.index = i := by
  have := List.find?_some h
  simpa using this

/-- A counted outcome ends the repetition that is asked to end. -/
theorem roundEnded_requested {s : State} {i : Nat} {r : RepeatEntry} {code : ResultCode} (found : s.findRepeat i = some r)
    (counts : code.endsRound = true) (asked : r.endRequest = true) (g : Figures) (stamp : Word) :
    s.roundEnded i code g stamp = s.endRepeat (r.counted g) .cancelled g s.now := by
  unfold State.roundEnded
  rw [found]
  dsimp only
  rw [if_pos counts, if_pos asked]

theorem roundEnded_stopping {s : State} {i : Nat} {r : RepeatEntry} {code : ResultCode} (found : s.findRepeat i = some r)
    (counts : code.endsRound = true) (asked : r.endRequest = false) (st : s.session.state = .stopping) (g : Figures)
    (stamp : Word) : s.roundEnded i code g stamp = s.endRepeat (r.counted g) .stopped g s.now := by
  unfold State.roundEnded
  rw [found]
  dsimp only
  rw [if_pos counts, if_neg (by rw [asked]; exact Bool.false_ne_true), if_pos st]

theorem roundEnded_goesOn {s : State} {i : Nat} {r : RepeatEntry} {code : ResultCode} (found : s.findRepeat i = some r)
    (counts : code.endsRound = true) (asked : r.endRequest = false) (st : s.session.state ≠ .stopping) (g : Figures)
    (stamp : Word) :
    s.roundEnded i code g stamp =
      withTables s (s.sched.repeats.map (fun x => if x.index = i then r.counted g else x))
        (s.queueWithRound i
          { outcome := code, last := g.last, attempts := g.attempts, losses := g.losses, stamp := stamp
            repeats := (r.counted g).count, overruns := (r.counted g).overruns }) := by
  unfold State.roundEnded
  rw [found]
  dsimp only
  rw [if_pos counts, if_neg (by rw [asked]; exact Bool.false_ne_true), if_neg st]
  rfl

theorem roundEnded_uncounted {s : State} {i : Nat} {r : RepeatEntry} {code : ResultCode} (found : s.findRepeat i = some r)
    (counts : code.endsRound = false) (g : Figures) (stamp : Word) :
    s.roundEnded i code g stamp = s.endRepeat r code (r.finalFigures g) stamp := by
  unfold State.roundEnded
  rw [found]
  dsimp only
  rw [if_neg (by rw [counts]; exact Bool.false_ne_true)]

theorem endsRound_iff (code : ResultCode) : code.endsRound = true ↔
    code = .accepted ∨ code = .sent ∨ code = .busyExhausted ∨ code = .noReplyExhausted ∨ code = .shapeExhausted
      ∨ code = .expired := by
  cases code <;> simp [ResultCode.endsRound]

/-- What the outcome of a round does to the repeat table and to the completion queue (R112, R114, R140). -/
theorem roundEnded_outcomes {s : State} {i : Nat} {r : RepeatEntry} (code : ResultCode) (g : Figures) (stamp : Word)
    (found : s.findRepeat i = some r) :
    let v := s.roundEnded i code g stamp
    let counted := r.counted g
    let result : Work := .round i
      { outcome := code, last := g.last, attempts := g.attempts, losses := g.losses, stamp := stamp
        repeats := counted.count, overruns := r.overruns }
    let goesOn := fun queue => v = withTables s (s.sched.repeats.map (fun x => if x.index = i then counted else x)) queue
    let ends := fun (outcome : ResultCode) (last : Option AttemptOutcome) (count : Nat) (moment : Word) =>
      v = withTables s (s.sched.repeats.filter (fun x => x.index != i))
        (s.results.queue
          ++ [.done i
              { outcome := outcome, last := last, attempts := g.attempts, losses := g.losses
                stamp := moment, repeats := count, overruns := r.overruns }])
    (code.endsRound = true → r.endRequest = false → s.session.state ≠ .stopping →
      (NoRound i s.results.queue → goesOn (s.results.queue ++ [result]))
      ∧ (∀ before old after, s.results.queue = before ++ .round i old :: after → NoRound i before →
          (before ≠ [] ∨ ¬ FrontInHand s → goesOn (before ++ result :: after))
          ∧ (before = [] → FrontInHand s → NoRound i after → goesOn (.round i old :: after ++ [result])))
      ∧ (∀ front before old after, s.results.queue = .round i front :: before ++ .round i old :: after →
          FrontInHand s → NoRound i before → goesOn (.round i front :: before ++ result :: after)))
    ∧ (code.endsRound = true → r.endRequest = true → ends .cancelled g.last counted.count s.session.deviceTime)
    ∧ (code.endsRound = true → r.endRequest = false → s.session.state = .stopping →
      ends .stopped g.last counted.count s.session.deviceTime)
    ∧ (code.endsRound = false → ends code (if g.attempts = 0 then r.last else g.last) r.count stamp) := by
  intro v counted result goesOn ends
  have index := findRepeat_index found
  refine ⟨fun counts asked st => ?_, fun counts asked => ?_, fun counts asked st => ?_, fun counts => ?_⟩
  · have on : ∀ queue, s.queueWithRound i
        { outcome := code, last := g.last, attempts := g.attempts, losses := g.losses, stamp := stamp
          repeats := counted.count, overruns := r.overruns } = queue → goesOn queue := by
      rintro _ rfl
      exact roundEnded_goesOn found counts asked st g stamp
    exact ⟨fun h => on _ (queueWithRound_none h _), fun before old after queue h =>
      ⟨fun free => on _ (queueWithRound_replaces queue h free _), fun empty front rest => on _
        (queueWithRound_behind (by rw [queue, empty]; rfl) rest front _)⟩,
      fun front before old after queue inHand h => on _ (queueWithRound_second queue h inHand _)⟩
  · show s.roundEnded i code g stamp = _
    rw [roundEnded_requested found counts asked, endRepeat_eq, show (r.counted g).index = i from index]
    rfl
  · show s.roundEnded i code g stamp = _
    rw [roundEnded_stopping found counts asked st, endRepeat_eq, show (r.counted g).index = i from index]
    rfl
  · show s.roundEnded i code g stamp = _
    rw [roundEnded_uncounted found counts, endRepeat_eq, index]
    rfl

/-! ### The round that joins next (R110) -/

/-- In an order, one that comes before every other stands first. -/
theorem head_orderBy {α : Type} {f : α → α → Bool} {x : α} {l : List α} (mem : x ∈ l)
    (first : ∀ y ∈ l, y ≠ x → f x y = true ∧ f y x = false) : (orderBy f l).head? = some x := by
  induction l with
  | nil => cases mem
  | cons z zs ih =>
    have rest := fun y hy => first y (List.mem_cons_of_mem z hy)
    unfold orderBy
    by_cases again : x ∈ zs
    · have head := ih again rest
      cases order : orderBy f zs with
      | nil =>
        rw [order] at head
        cases head
      | cons w ws =>
        rw [order] at head
        cases head
        unfold insertBefore
        by_cases hz : z = x
        · subst hz
          split
          · rfl
          · rfl
        · rw [if_pos (first z List.mem_cons_self hz).1]
          rfl
    · have hz : x = z := (List.mem_cons.1 mem).resolve_right again
      subst hz
      cases order : orderBy f zs with
      | nil => rfl
      | cons w ws =>
        have hw : w ∈ zs := (mem_orderBy f w zs).1 (by rw [order]; exact List.mem_cons_self)
        have ne : w ≠ x := fun h => again (h ▸ hw)
        unfold insertBefore
        rw [(rest w hw ne).2, if_neg Bool.false_ne_true]
        rfl

theorem dueSince_isSome (r : RepeatEntry) : r.dueSince.isSome = true ↔ ∃ m, r.round = .due m := by
  unfold RepeatEntry.dueSince
  cases r.round <;> simp

/-- A due entry of the trunk that has been due longer than every other, or as long with the lower index, joins first. -/
theorem nextRound_of {s : State} {t : Trunk} {r : RepeatEntry} {since : Word} (mem : r ∈ s.sched.repeats)
    (due : r.round = .due since) (trunk : r.copy.trunk = t)
    (first : ∀ x ∈ s.sched.repeats, ∀ m, x.round = .due m → x.copy.trunk = t → x ≠ r →
      (s.session.deviceTime - m).toNat < (s.session.deviceTime - since).toNat
      ∨ ((s.session.deviceTime - m).toNat = (s.session.deviceTime - since).toNat ∧ r.index < x.index)) :
    s.nextRound t = some r := by
  have age : ∀ (x : RepeatEntry) (m : Word), x.round = .due m →
      s.elapsed (x.dueSince.getD s.now) = (s.session.deviceTime - m).toNat := by
    intro x m hm
    unfold RepeatEntry.dueSince
    rw [hm]
    rfl
  refine head_orderBy ?_ fun x hx ne => ?_
  · rw [List.mem_filter]
    refine ⟨mem, ?_⟩
    rw [Bool.and_eq_true, dueSince_isSome]
    exact ⟨beq_iff_eq.2 trunk, since, due⟩
  · rw [List.mem_filter, Bool.and_eq_true, dueSince_isSome] at hx
    obtain ⟨hmem, htrunk, m, hm⟩ := hx
    have cmp := first x hmem m hm (beq_iff_eq.1 htrunk) ne
    unfold State.dueBefore
    simp only [age x m hm, age r since due]
    generalize (s.session.deviceTime - m).toNat = a at *
    generalize (s.session.deviceTime - since).toNat = b at *
    refine ⟨?_, ?_⟩
    · rw [Bool.or_eq_true, Bool.and_eq_true]
      rcases cmp with h | ⟨h, k⟩
      · exact .inl (decide_eq_true h)
      · exact .inr ⟨beq_iff_eq.2 h.symm, decide_eq_true k⟩
    · rw [Bool.or_eq_false_iff, Bool.and_eq_false_iff]
      rcases cmp with h | ⟨h, k⟩
      · exact ⟨decide_eq_false (by omega), .inl (beq_eq_false_iff_ne.2 (by omega))⟩
      · exact ⟨decide_eq_false (by omega), .inr (decide_eq_false (by omega))⟩

/-! ### An entry joins (R83, R84) -/

theorem mem_joinList (e : Entry) (l : List Entry) : e ∈ joinList e l ∧ (joinList e l).length = l.length + 1 := by
  unfold joinList
  refine ⟨(mem_insertBefore _ _ _ _).2 (.inl rfl), ?_⟩
  induction l with
  | nil => rfl
  | cons x xs ih =>
    unfold insertBefore
    split
    · rw [List.length_cons, ih, List.length_cons]
    · rfl

/-- What an entry keeps of what it was when it joined, whatever the selection makes of its condition. -/
def JoinedAs (s : State) (i : Nat) (c : SendCopy) (round : Bool) (y : Entry) : Prop :=
  y.index = i ∧ y.copy = c ∧ y.round = round ∧ y.seq = s.sched.seq ∧ y.attempts = 0 ∧ y.losses = 0 ∧ y.failures = 0
    ∧ y.last = none ∧ y.retry = false ∧ y.joined = s.session.deviceTime ∧ y.endMark = .none
    ∧ (y.condition = .waiting ∨ y.condition = .armed)

/-- An entry that joins a trunk that has had neither processing stands in its list, and a selection follows (R84). -/
theorem joinEntry_joins {s : State} {i : Nat} {c : SendCopy} {round : Bool} (none : s.endAtJoining c.trunk = none) :
    let v := s.joinEntry i c round
    v.sched.repeats = s.sched.repeats ∧ v.sched.seq = s.sched.seq + 1
      ∧ (v.list c.trunk).length = (s.list c.trunk).length + 1 ∧ (∃ y ∈ v.list c.trunk, JoinedAs s i c round y)
      ∧ (s.schedulerLive = true → (s.engine c.trunk).takesArming = true → Selected v c.trunk)
      ∧ OtherTrunksSame s v c.trunk ∧ SameOutsideTrunks s v := by
  intro v
  have hv : v = (withJoined s i c round).select c.trunk := by
    show s.joinEntry i c round = _
    rw [joinEntry_eq, none]
  have joined : (withJoined s i c round).list c.trunk
      = joinList (newEntry i c round s.sched.seq s.now) (s.list c.trunk) := get_set_same _ _ _
  obtain ⟨mem, length⟩ := mem_joinList (newEntry i c round s.sched.seq s.now) (s.list c.trunk)
  have sends := sendsOn_trans (sendsOn_withJoined s i c round) (sendsOn_select (withJoined s i c round) c.trunk)
  obtain ⟨results, sched⟩ := select_rest (withJoined s i c round) c.trunk
  rw [hv]
  refine ⟨?_, ?_, ?_, ?_, fun live takes => select_selected live takes, sends.others,
    sends.elsewhere, sends.regs, results, sends.director⟩
  · rw [sched]
    rfl
  · rw [sched]
    rfl
  · have indices := congrArg List.length (select_indices (withJoined s i c round) c.trunk)
    rw [List.length_map, List.length_map, joined, length] at indices
    exact indices
  · obtain ⟨f, list, keeps⟩ := select_entries (withJoined s i c round) c.trunk
    obtain ⟨k, hk, cond⟩ := keeps (newEntry i c round s.sched.seq s.now)
    refine ⟨f (newEntry i c round s.sched.seq s.now), ?_, ?_⟩
    · rw [list, joined]
      exact List.mem_map_of_mem mem
    · rw [hk]
      refine ⟨rfl, rfl, rfl, rfl, rfl, rfl, rfl, rfl, rfl, rfl, rfl, ?_⟩
      rcases cond with h | ⟨_, h⟩ | ⟨h, _⟩
      · exact .inl h
      · exact .inl h
      · exact .inr h

/-! ### Rounds and due times (R109, R110, R113) -/

theorem hasPlace_iff (s : State) (t : Trunk) : s.hasPlace t = true ↔ s.placesTaken t < 16 := decide_eq_true_iff

theorem joinRound_of {s : State} {t : Trunk} {r : RepeatEntry} (live : s.schedulerLive = true) (place : s.placesTaken t < 16)
    (next : s.nextRound t = some r) :
    s.joinRound t = (s.updateRepeat r.index (fun x => { x with round := .inRound })).joinEntry r.index r.copy true := by
  unfold State.joinRound
  rw [live, (hasPlace_iff s t).2 place, Bool.and_self, if_pos rfl, next]

theorem joinRound_full {s : State} {t : Trunk} (full : 16 ≤ s.placesTaken t) : s.joinRound t = s := by
  unfold State.joinRound
  refine if_neg fun h => ?_
  have := (hasPlace_iff s t).1 (Bool.and_eq_true_iff.1 h).2
  omega

/-- A due entry joins a free place of a trunk that has had neither processing (R110). -/
theorem joinRound_joins {s : State} {t : Trunk} {r : RepeatEntry} (live : s.schedulerLive = true)
    (st : s.session.state ≠ .stopping) (off : s.sched.offDone.get t = false) (place : s.placesTaken t < 16)
    (next : s.nextRound t = some r) (trunk : r.copy.trunk = t) :
    let v := s.joinRound t
    v.sched.repeats = s.sched.repeats.map (fun x => if x.index = r.index then { x with round := .inRound } else x)
      ∧ v.sched.seq = s.sched.seq + 1 ∧ (v.list t).length = (s.list t).length + 1
      ∧ (∃ y ∈ v.list t, JoinedAs s r.index r.copy true y)
      ∧ ((s.engine t).takesArming = true → Selected v t) ∧ OtherTrunksSame s v t ∧ SameOutsideTrunks s v := by
  intro v
  have hv : v = _ := joinRound_of live place next
  rw [hv]
  subst trunk
  have none : (s.updateRepeat r.index (fun x => { x with round := .inRound })).endAtJoining r.copy.trunk = none :=
    endAtJoining_none _ _ (fun h => st h.1) off
  obtain ⟨repeats, seq, length, entry, selected, others, rest⟩ := joinEntry_joins (i := r.index) (round := true) none
  exact ⟨repeats, seq, length, entry, selected live, others, rest⟩

/-- The repeat entries of an index replaced by one. -/
def replacedRepeat (s : State) (i : Nat) (x : RepeatEntry) : State :=
  s.setRepeats (s.sched.repeats.map (fun y => if y.index = i then x else y))

/-- A repeat entry whose next due time is its period later (R109). -/
def laterDue (r : RepeatEntry) : RepeatEntry := { r with nextDue := r.nextDue + BitVec.ofNat 32 r.period }

/-- A repeat entry whose due time found it due or in round (R113). -/
def skippedDue (r : RepeatEntry) : RepeatEntry := { laterDue r with overruns := min 65535 (r.overruns + 1) }

/-- The table after a due time that found the entry between rounds (R109). -/
def madeDue (s : State) (i : Nat) (r : RepeatEntry) : State :=
  replacedRepeat s i { laterDue r with round := .due r.nextDue }

theorem exec_dueTime {s : State} {i : Nat} {r : RepeatEntry} (found : s.findRepeat i = some r)
    (live : s.schedulerLive = true) (reached : (s.session.deviceTime - r.nextDue).toNat < 2147483648) :
    exec (.dueTime i) s = .next (s.dueTimeOf r) := by
  show execDueTime i s = _
  unfold execDueTime
  rw [found]
  refine congrArg Host.Outcome.next (if_pos ?_)
  unfold State.dueTimeDue State.reached
  rw [live, Bool.true_and]
  exact decide_eq_true reached

/-- A due time while time runs and rounds are made (R109, R113). -/
theorem dueTimeOf_running {s : State} {i : Nat} {r : RepeatEntry} (index : r.index = i)
    (st : s.session.state = .running ∨ s.session.state = .paused ∨ s.session.state = .settling) :
    (r.round = .between → s.dueTimeOf r = (madeDue s i r).joinRound r.copy.trunk)
      ∧ (r.round ≠ .between → s.dueTimeOf r = replacedRepeat s i (skippedDue r)) := by
  subst index
  have choice : s.dueTimeOf r = match r.round with
      | .between => (madeDue s r.index r).joinRound r.copy.trunk
      | .due _ => replacedRepeat s r.index (skippedDue r)
      | .inRound => replacedRepeat s r.index (skippedDue r) := by
    unfold State.dueTimeOf
    rcases st with st | st | st
    · rw [st]
      rfl
    · rw [st]
      rfl
    · rw [st]
      rfl
  refine ⟨fun between => ?_, fun busy => ?_⟩
  · rw [choice, between]
  · rw [choice]
    cases h : r.round with
    | between => exact absurd h busy
    | due m => rfl
    | inRound => rfl

theorem dueTimeOf_standby {s : State} {i : Nat} {r : RepeatEntry} (index : r.index = i)
    (st : s.session.state = .standby) : s.dueTimeOf r = replacedRepeat s i (skippedDue r) := by
  subst index
  unfold State.dueTimeOf
  rw [st]
  rfl

theorem dueTimeOf_stopping {s : State} {i : Nat} {r : RepeatEntry} (index : r.index = i)
    (st : s.session.state = .stopping) : s.dueTimeOf r = replacedRepeat s i (laterDue r) := by
  subst index
  unfold State.dueTimeOf
  rw [st]
  rfl

/-- An entry that no other due one of its trunk is ahead of joins at its due time (R109, R110). -/
theorem madeDue_joins {s : State} {i : Nat} {r : RepeatEntry} (found : s.findRepeat i = some r)
    (st : s.session.state = .running ∨ s.session.state = .paused ∨ s.session.state = .settling)
    (place : s.placesTaken r.copy.trunk < 16) (off : s.sched.offDone.get r.copy.trunk = false)
    (alone : ∀ x ∈ s.sched.repeats, x.index ≠ i → x.copy.trunk = r.copy.trunk → ∀ m, x.round ≠ .due m) :
    let v := (madeDue s i r).joinRound r.copy.trunk
    v.sched.repeats = (replacedRepeat s i { laterDue r with round := .inRound }).sched.repeats
      ∧ (v.list r.copy.trunk).length = (s.list r.copy.trunk).length + 1
      ∧ ∃ y ∈ v.list r.copy.trunk, y.index = i ∧ y.copy = r.copy ∧ y.round = true ∧ y.seq = s.sched.seq
          ∧ y.joined = s.session.deviceTime := by
  have index := findRepeat_index found
  have mem : r ∈ s.sched.repeats := List.mem_of_find?_eq_some found
  have live : (madeDue s i r).schedulerLive = true := by
    show s.schedulerLive = true
    unfold State.schedulerLive
    rcases st with st | st | st <;> rw [st]
  have notStopping : s.session.state ≠ .stopping := by
    rcases st with st | st | st <;> rw [st] <;> decide
  have next : (madeDue s i r).nextRound r.copy.trunk = some { laterDue r with round := .due r.nextDue } := by
    refine nextRound_of (since := r.nextDue) ?_ rfl rfl fun x hx m due trunk ne => ?_
    · exact List.mem_map.2 ⟨r, mem, if_pos index⟩
    · obtain ⟨y, hy, rfl⟩ := List.mem_map.1 hx
      split at ne
      · exact absurd rfl ne
      · rename_i other
        rw [if_neg other] at due trunk
        exact absurd due (alone y hy other trunk m)
  obtain ⟨repeats, _, length, ⟨y, hy, joined⟩, _⟩ := joinRound_joins live notStopping off place next rfl
  obtain ⟨yi, copy, round, seq, _, _, _, _, _, moment, _⟩ := joined
  intro v
  refine ⟨?_, length, y, hy, yi.trans index, copy, round, seq, moment⟩
  refine repeats.trans ?_
  show (s.sched.repeats.map _).map _ = s.sched.repeats.map _
  rw [List.map_map]
  refine List.map_congr_left fun x _ => ?_
  rw [Function.comp_apply]
  by_cases own : x.index = i
  · rw [if_pos own, if_pos own, if_pos rfl]
  · rw [if_neg own, if_neg own, if_neg fun k => own (k.trans index)]

/-- Settles O54: due times, the joining of rounds, and the outcomes of rounds. -/
theorem dueTimesAndRounds : Obligations.DueTimesAndRounds := by
  refine ⟨fun s i r found reached => ?_, fun s t r since st off place mem due trunk first => ?_,
    fun s i r code g stamp found => ?_⟩
  · intro replaced later skipped
    have index := findRepeat_index found
    refine ⟨fun st => ?_, fun st => ?_, fun st => ?_⟩
    · have live : s.schedulerLive = true := by
        unfold State.schedulerLive
        rcases st with st | st | st <;> rw [st]
      have ran := exec_dueTime found live reached
      obtain ⟨joins, skips⟩ := dueTimeOf_running index st
      refine ⟨fun busy => ?_, fun between full => ?_, fun between => ?_, fun between place off alone => ?_⟩
      · rw [ran, skips busy]
        rfl
      · have places : 16 ≤ (madeDue s i r).placesTaken r.copy.trunk := Nat.le_trans full (Nat.le_add_right _ _)
        rw [ran, joins between, joinRound_full places]
        rfl
      · rw [ran, joins between]
        rfl
      · rw [joins between] at ran
        exact ⟨_, ran, madeDue_joins found st place off alone⟩
    · rw [exec_dueTime found (by rw [State.schedulerLive, st]) reached, dueTimeOf_standby index st]
      rfl
    · rw [exec_dueTime found (by rw [State.schedulerLive, st]) reached, dueTimeOf_stopping index st]
      rfl
  · have live : s.schedulerLive = true := by
      unfold State.schedulerLive
      rcases st with st | st | st | st <;> rw [st]
    have notStopping : s.session.state ≠ .stopping := by
      rcases st with st | st | st | st <;> rw [st] <;> decide
    exact ⟨_, rfl, joinRound_joins live notStopping off place (nextRound_of mem due trunk first) trunk⟩
  · intro v isRoundOutcome counted result becomes goesOn noRound ends
    obtain ⟨goes, asked, stops, uncounted⟩ := roundEnded_outcomes code g stamp found
    have counts : isRoundOutcome → code.endsRound = true := (endsRound_iff code).2
    refine ⟨fun h => goes (counts h), fun h => asked (counts h), fun h => stops (counts h), fun h => uncounted ?_⟩
    rcases h with h | h | h <;> rw [h] <;> rfl

end Sys2Proof.Proofs

/-! SUPPORT. Rests, expiry and cancellation of entries, repetitions and receive-side indices (O53; R86, R93 to R99, R115,
R133). -/

namespace Sys2Proof.Proofs

open Sys2Proof.Machine Sys2Proof.Laws Sys2Proof.Safety

/-! ### An entry that finishes (R86) -/

/-- The session's state and device time are the same. -/
def SameMoment (s v : State) : Prop :=
  v.session.state = s.session.state ∧ v.session.deviceTime = s.session.deviceTime

theorem sameMoment_of_session {s v : State} (session : v.session = s.session) : SameMoment s v := by
  unfold SameMoment
  rw [session]
  exact ⟨rfl, rfl⟩

/-- What is handed on depends on the repeat table, the completion queue, the session's state and time, and the unit in
hand; it changes the repeat table and the queue alone. -/
theorem handOn_tables {s v : State} (repeats : v.sched.repeats = s.sched.repeats) (results : v.results = s.results)
    (moment : SameMoment s v) (port : v.port = s.port) (x : Entry) (code : ResultCode) (w : Word) :
    (v.handOn x code w).results = (s.handOn x code w).results
      ∧ (v.handOn x code w).sched = { v.sched with repeats := (s.handOn x code w).sched.repeats } := by
  obtain ⟨state, time⟩ := moment
  unfold State.handOn
  by_cases round : x.round = true
  · rw [if_pos round, if_pos round]
    have find : v.findRepeat x.index = s.findRepeat x.index := by rw [State.findRepeat, repeats]; rfl
    cases found : s.findRepeat x.index with
    | none =>
      unfold State.roundEnded
      rw [find, found]
      exact ⟨results, by rw [← repeats]⟩
    | some r =>
      rw [found] at find
      by_cases counts : code.endsRound = true
      · cases asked : r.endRequest with
        | true =>
          rw [roundEnded_requested find counts asked, roundEnded_requested found counts asked, endRepeat_eq, endRepeat_eq]
          unfold withTables
          rw [repeats, results, State.now, time]
          exact ⟨rfl, rfl⟩
        | false =>
          by_cases st : s.session.state = .stopping
          · rw [roundEnded_stopping find counts asked (by rw [state]; exact st), roundEnded_stopping found counts asked st,
              endRepeat_eq, endRepeat_eq]
            unfold withTables
            rw [repeats, results, State.now, time]
            exact ⟨rfl, rfl⟩
          · rw [roundEnded_goesOn find counts asked (by rw [state]; exact st), roundEnded_goesOn found counts asked st]
            unfold withTables State.queueWithRound State.frontGranted
            rw [repeats, results, port]
            exact ⟨rfl, rfl⟩
      · have uncounted := Bool.eq_false_iff.2 counts
        rw [roundEnded_uncounted find uncounted, roundEnded_uncounted found uncounted, endRepeat_eq, endRepeat_eq]
        unfold withTables
        rw [repeats, results]
        exact ⟨rfl, rfl⟩
  · rw [if_neg round, if_neg round]
    refine ⟨?_, ?_⟩
    · unfold State.handDone State.setQueue
      rw [results]
      rfl
    · show v.sched = { v.sched with repeats := s.sched.repeats }
      rw [← repeats]

/-- What an entry that leaves its list changes. -/
theorem removeEntry_eq (s : State) (t : Trunk) (i : Nat) : s.removeEntry t i =
    { s with
      engines := (s.removeEntry t i).engines
      sched := { s.sched with lists := s.sched.lists.set t ((s.list t).filter (fun x => x.index != i)) } } := by
  unfold State.removeEntry
  dsimp only
  split
  · rfl
  · rfl

/-- The tables after an entry of a state with the same tables finishes, and the rest of the scheduler (R86). -/
theorem finishEntry_tables {s r : State} {t : Trunk} (repeats : r.sched.repeats = s.sched.repeats)
    (results : r.results = s.results) (moment : SameMoment s r) (port : r.port = s.port) (x : Entry)
    (code : ResultCode) (w : Word) :
    let v := r.finishEntry t x code w
    v.results = (s.handOn x code w).results
      ∧ v.sched = { r.sched with
          lists := r.sched.lists.set t ((r.list t).filter (fun y => y.index != x.index))
          repeats := (s.handOn x code w).sched.repeats } := by
  have removed := removeEntry_eq r t x.index
  obtain ⟨same, sched⟩ := handOn_tables (s := s) (v := r.removeEntry t x.index) (by rw [removed]; exact repeats)
    (by rw [removed]; exact results) (by rw [removed]; exact moment) (by rw [removed]; exact port) x code w
  refine ⟨same, ?_⟩
  show ((r.removeEntry t x.index).handOn x code w).sched = _
  rw [sched, removed]

/-- An entry finishes, and a selection follows: the lists, the tables, and what stays (R86, R88). -/
theorem finishSelect_parts {s r : State} {t : Trunk} (before : SendsOn t s r) (lists : r.list t = s.list t)
    (repeats : r.sched.repeats = s.sched.repeats) (results : r.results = s.results) (x : Entry) (code : ResultCode)
    (w : Word) :
    let v := (r.finishEntry t x code w).select t
    (v.list t).map Entry.index = ((s.list t).map Entry.index).filter (fun j => j != x.index)
      ∧ (s.schedulerLive = true → (s.engine t).takesArming = true → Selected v t)
      ∧ SendsOn t s v ∧ v.results = (s.handOn x code w).results
      ∧ v.sched.repeats = (s.handOn x code w).sched.repeats
      ∧ v.sched = { r.sched with lists := v.sched.lists, repeats := v.sched.repeats } := by
  have finished := sendsOn_trans before (sendsOn_finishEntry r t x code w)
  obtain ⟨same, sched⟩ := finishEntry_tables (t := t) repeats results (sameMoment_of_session before.session) before.port x code w
  obtain ⟨selResults, selSched⟩ := select_rest (r.finishEntry t x code w) t
  have list := finishEntry_list r t t x code w
  rw [if_pos rfl, lists] at list
  intro v
  refine ⟨?_, fun live takes => select_selected ?_ ?_, sendsOn_trans finished (sendsOn_select _ t), ?_, ?_, ?_⟩
  · rw [select_indices, list, List.filter_map]
    rfl
  · rw [State.schedulerLive, finished.session]
    exact live
  · rw [finished.engine.1]
    exact takes
  · exact selResults.trans same
  · rw [selSched]
    show (r.finishEntry t x code w).sched.repeats = _
    rw [sched]
  · rw [selSched, sched]

theorem finishSelect_at (s : State) (t : Trunk) (x : Entry) (code : ResultCode) (w : Word) :
    let v := (s.finishEntry t x code w).select t
    (v.list t).map Entry.index = ((s.list t).map Entry.index).filter (fun j => j != x.index)
      ∧ (s.schedulerLive = true → (s.engine t).takesArming = true → Selected v t)
      ∧ SendsOn t s v ∧ v.results = (s.handOn x code w).results
      ∧ v.sched.repeats = (s.handOn x code w).sched.repeats
      ∧ v.sched = { s.sched with lists := v.sched.lists, repeats := v.sched.repeats } :=
  finishSelect_parts (sendsOn_refl t s) rfl rfl rfl x code w

/-! ### Rests and expiry (R93 to R97) -/

theorem pendingEntry_of {s : State} {i : Nat} {t : Trunk} {x : Entry} (trunk : s.trunkOf i = some t)
    (found : s.findEntry t i = some x) : s.pendingEntry i = some (t, x) := by
  unfold State.pendingEntry
  rw [trunk]
  dsimp only
  rw [found]
  rfl

theorem restDue_iff {s : State} {x : Entry} {ms : Nat} {began : Word} (live : s.schedulerLive = true)
    (rests : x.condition = .resting ms began) :
    s.restDue x = true ↔ ms ≤ (s.session.deviceTime - began).toNat := by
  unfold State.restDue
  rw [rests, live]
  exact decide_eq_true_iff

theorem expiryDue_iff {s : State} {x : Entry} {ms : Nat} (live : s.schedulerLive = true) (expires : x.copy.expiry = some ms)
    (unmarked : x.endMark = .none) : s.expiryDue x = true ↔ ms ≤ (s.session.deviceTime - x.joined).toNat := by
  unfold State.expiryDue
  rw [expires, live, unmarked]
  exact decide_eq_true_iff

theorem exec_restEnd {s : State} {i : Nat} {t : Trunk} {x : Entry} (pending : s.pendingEntry i = some (t, x)) :
    exec (.restEnd i) s = .next (if s.restDue x then s.endRest t i else s) := by
  show execRestEnd i s = _
  unfold execRestEnd
  rw [pending]

theorem exec_expiry {s : State} {i : Nat} {t : Trunk} {x : Entry} (pending : s.pendingEntry i = some (t, x)) :
    exec (.expiry i) s = .next (if s.expiryDue x then s.expireEntry t x else s) := by
  show execExpiry i s = _
  unfold execExpiry
  rw [pending]

theorem updateEntry_list (s : State) (t : Trunk) (i : Nat) (f : Entry → Entry) :
    (s.updateEntry t i f).list t = (s.list t).map (fun y => if y.index = i then f y else y) :=
  list_setList_same s t _

/-- An entry changed in its copy's place, and a selection: it is still there, but for its condition. -/
theorem updateSelect_parts {s : State} {t : Trunk} {i : Nat} {x : Entry} {f : Entry → Entry}
    (copy : ∀ y, (f y).copy = y.copy) (index : ∀ y, (f y).index = y.index) (found : s.findEntry t i = some x) :
    let v := (s.updateEntry t i f).select t
    SendsOn t s v ∧ v.results = s.results ∧ (s.schedulerLive = true → (s.engine t).takesArming = true → Selected v t)
      ∧ (v.list t).map Entry.index = (s.list t).map Entry.index
      ∧ v.sched = { s.sched with lists := v.sched.lists }
      ∧ ∃ y ∈ v.list t, Reconditioned (s.updateEntry t i f) t (f x) y := by
  have updated := sendsOn_updateEntry t s i copy
  obtain ⟨results, sched⟩ := select_rest (s.updateEntry t i f) t
  obtain ⟨g, list, keeps⟩ := select_entries (s.updateEntry t i f) t
  intro v
  refine ⟨sendsOn_trans updated (sendsOn_select _ t), results, fun live takes => select_selected live takes, ?_, ?_,
    g (f x), ?_, keeps (f x)⟩
  · rw [select_indices, updateEntry_list, List.map_map]
    refine List.map_congr_left fun y _ => ?_
    rw [Function.comp_apply]
    split
    · exact index y
    · rfl
  · rw [sched]
    rfl
  · rw [list, updateEntry_list]
    exact List.mem_map_of_mem (List.mem_map.2 ⟨x, findEntry_mem found, if_pos (findEntry_index found)⟩)

theorem expireEntry_standby {s : State} {t : Trunk} {x : Entry} (st : s.session.state = .standby) :
    s.expireEntry t x = s.updateEntry t x.index (fun x => { x with endMark := .expired, stamp := some s.now }) :=
  if_pos st

theorem expireEntry_inFlight {s : State} {t : Trunk} {x : Entry} (st : s.session.state ≠ .standby)
    (flight : x.condition = .inFlight) :
    s.expireEntry t x = s.updateEntry t x.index (fun x => { x with endMark := .expired }) := by
  unfold State.expireEntry
  rw [if_neg st, if_pos flight]

theorem expireEntry_finishes {s : State} {t : Trunk} {x : Entry} (st : s.session.state ≠ .standby)
    (rests : x.condition ≠ .inFlight) : s.expireEntry t x = (s.finishEntry t x .expired s.now).select t := by
  unfold State.expireEntry
  rw [if_neg st, if_neg rests]

/-! ### Cancellation (R98, R99, R115, R133) -/

theorem sendCancel_entry {s : State} {i : Nat} {t : Trunk} {x : Entry} (trunk : s.trunkOf i = some t)
    (found : s.findEntry t i = some x) : s.sendCancel i = s.cancelEntry t x := by
  unfold State.sendCancel
  rw [trunk]
  dsimp only
  rw [found]

theorem cancelEntry_finishes {s : State} {t : Trunk} {x : Entry} (rests : x.condition ≠ .inFlight) :
    s.cancelEntry t x = (s.finishEntry t x .cancelled s.now).select t := if_neg rests

theorem cancelEntry_inFlight {s : State} {t : Trunk} {x : Entry} (flight : x.condition = .inFlight) :
    s.cancelEntry t x =
      let s1 := if x.endMark = .none then s.updateEntry t x.index (fun x => { x with endMark := .cancelled }) else s
      if x.round then s1.updateRepeat x.index (fun r => { r with endRequest := true }) else s1 := if_pos flight

/-- Settles O53: a rest ends, an entry expires, a cancel reaches what it names. -/
theorem restAndExpiry : Obligations.RestAndExpiry := by
  refine ⟨fun s i t x live trunk found => ⟨fun ms began rests => ?_, fun ms expires unmarked => ?_⟩,
    fun s i => ⟨fun t x trunk found => ?_, fun trunk => ⟨fun r found => ?_, fun absent => ?_⟩, fun listed => ?_,
      fun absent => ?_⟩⟩
  · have index := findEntry_index found
    have ran := exec_restEnd (pendingEntry_of trunk found)
    have due := restDue_iff live rests
    refine ⟨fun late => ?_, fun early => ?_⟩
    · rw [if_pos (due.2 late)] at ran
      obtain ⟨sends, results, selected, indices, _, y, mem, c, hy, cond⟩ := updateSelect_parts
        (f := fun e => { e with condition := .waiting }) (fun _ => rfl) (fun _ => rfl) found
      refine ⟨_, ran, selected live, sends.others, ⟨sends.elsewhere, sends.regs, results, sends.director⟩, indices, y, mem,
        ?_⟩
      rw [hy]
      refine ⟨index, ?_, rfl, rfl, rfl, rfl, rfl⟩
      rcases cond with h | ⟨_, h⟩ | ⟨h, _⟩
      · exact .inl h
      · exact .inl h
      · exact .inr h
    · rw [if_neg fun k => Nat.not_le.2 early (due.1 k)] at ran
      exact ran
  · have index := findEntry_index found
    have ran := exec_expiry (pendingEntry_of trunk found)
    have due := expiryDue_iff live expires unmarked
    refine ⟨fun late => ?_, fun early => ?_⟩
    · rw [if_pos (due.2 late)] at ran
      rw [ran]
      refine ⟨fun st => ?_, fun st flight => ?_, fun st rests => ?_⟩
      · rw [expireEntry_standby st, index]
        rfl
      · rw [expireEntry_inFlight st flight, index]
        rfl
      · rw [expireEntry_finishes st rests]
        obtain ⟨indices, selected, sends, results, repeats, _⟩ := finishSelect_at s t x .expired s.now
        rw [index] at indices
        refine ⟨_, rfl, indices, selected live, sends.others, sends.elsewhere, sends.regs, sends.director, fun round => ?_,
          fun single => ?_⟩
        · rw [results, repeats]
          unfold State.handOn
          rw [if_pos round, index]
          exact ⟨rfl, rfl⟩
        · rw [results]
          unfold State.handOn
          rw [if_neg (by rw [single]; exact Bool.false_ne_true), index]
          rfl
    · rw [ran, if_neg fun k => Nat.not_le.2 early (due.1 k)]
  · intro v marked requested
    have index := findEntry_index found
    have hv : v = s.cancelEntry t x := sendCancel_entry trunk found
    refine ⟨fun rests => ?_, fun flight => ?_⟩
    · obtain ⟨indices, selected, sends, results, repeats, _⟩ := finishSelect_at s t x .cancelled s.now
      rw [handOn_uncounted s x .cancelled s.now rfl] at results repeats
      rw [index] at indices
      rw [hv, cancelEntry_finishes rests]
      refine ⟨indices, selected, sends.others, sends.elsewhere, sends.regs, sends.director, results, fun single => ?_,
        fun round => ?_⟩
      · rw [repeats]
        exact if_neg (by rw [single]; exact Bool.false_ne_true)
      · rw [repeats, ← index]
        exact if_pos round
    · have cancels := cancelEntry_inFlight (s := s) (t := t) flight
      rw [index] at cancels
      dsimp only at cancels
      rw [hv, cancels]
      refine ⟨fun single unmarked => ?_, fun single was => ?_, fun round unmarked => ?_, fun round was => ?_⟩
      · rw [if_neg (by rw [single]; exact Bool.false_ne_true), if_pos unmarked]
        rfl
      · rw [if_neg (by rw [single]; exact Bool.false_ne_true), if_neg was]
      · rw [if_pos round, if_pos unmarked]
        rfl
      · rw [if_pos round, if_neg was]
        rfl
  · have search : s.findRepeat i = some r := found
    have index := findRepeat_index search
    unfold State.sendCancel
    rw [trunk]
    dsimp only
    rw [search]
    dsimp only
    rw [endRepeat_eq, index]
    show _ = withTables s _ (s.results.queue ++ [.done r.index _])
    rw [index]
    rfl
  · have search : s.findRepeat i = none := List.find?_eq_none.2 fun r hr h => absent r hr (by simpa using h)
    unfold State.sendCancel
    rw [trunk]
    dsimp only
    rw [search]
  · refine if_pos ?_
    rw [List.any_eq_true]
    obtain ⟨o, ho, hi⟩ := listed
    exact ⟨o, ho, beq_iff_eq.2 hi⟩
  · refine if_neg ?_
    rw [List.any_eq_true]
    rintro ⟨o, ho, hi⟩
    exact absent o ho (beq_iff_eq.1 hi)

end Sys2Proof.Proofs

/-! SUPPORT. The outcome of an attempt, the STOP processing that waits for it, and trunk off (O50, O52; R91, R100, R102,
R104). -/

namespace Sys2Proof.Proofs

open Sys2Proof.Machine Sys2Proof.Laws Sys2Proof.Safety

/-! ### A trunk whose entries and repetitions all end -/

theorem finishTrunk_eq (s : State) (t : Trunk) (c : ResultCode) (w : Word) :
    s.finishTrunk t c w =
      let r := handOnAll c w (s.list t) ((s.withdraw t).setList t [])
      endRepeats c w (r.repeatsOf t) r := rfl

theorem handOnAll_lists (c : ResultCode) (w : Word) (l : List Entry) (s : State) :
    (handOnAll c w l s).sched.lists = s.sched.lists := by
  induction l generalizing s with
  | nil => rfl
  | cons x xs ih => exact (ih _).trans (handOn_lists s x c w)

/-- Nothing of the trunk is left (R102, R104, R116, R117). -/
theorem finishTrunk_empties (s : State) (t : Trunk) (c : ResultCode) (w : Word) :
    (s.finishTrunk t c w).list t = [] ∧ ∀ r ∈ (s.finishTrunk t c w).sched.repeats, r.copy.trunk ≠ t := by
  have eq := finishTrunk_eq s t c w
  dsimp only at eq
  have lists := handOnAll_lists c w (s.list t) ((s.withdraw t).setList t [])
  generalize handOnAll c w (s.list t) ((s.withdraw t).setList t []) = r at eq lists
  rw [eq, endRepeats_eq]
  refine ⟨?_, fun x hx trunk => ?_⟩
  · show r.sched.lists.get t = []
    rw [lists]
    exact list_setList_same _ t []
  · obtain ⟨mem, left⟩ := List.mem_filter.1 hx
    rw [Bool.not_eq_true', List.any_eq_false] at left
    refine left x ?_ (beq_iff_eq.2 rfl)
    exact (mem_orderBy _ _ _).2 (List.mem_filter.2 ⟨mem, beq_iff_eq.2 trunk⟩)

/-- Two entries report the same when they finish uncounted. -/
def SameReport (x y : Entry) : Prop :=
  y.index = x.index ∧ y.round = x.round ∧ y.last = x.last ∧ y.attempts = x.attempts ∧ y.losses = x.losses

theorem uncountedDone_sameReport {x y : Entry} (h : SameReport x y) (table : List RepeatEntry) (c : ResultCode) (w : Word) :
    uncountedDone table c w y = uncountedDone table c w x := by
  obtain ⟨index, round, last, attempts, losses⟩ := h
  unfold uncountedDone entryDone roundDone
  rw [index, round, last, attempts, losses]

theorem trunkEnds_sameReport {f g : Entry → Entry} {l : List Entry} (h : ∀ x ∈ l, SameReport (f x) (g x))
    (table : List RepeatEntry) (left : List RepeatEntry) (c : ResultCode) (w : Word) :
    trunkEnds table (l.map g) left c w = trunkEnds table (l.map f) left c w := by
  unfold trunkEnds
  rw [List.flatMap_map, List.flatMap_map]
  exact congrArg (· ++ _) (List.flatMap_congr fun x hx => uncountedDone_sameReport (h x hx) table c w)

theorem roundIn_sameReport {f g : Entry → Entry} {l : List Entry} (h : ∀ x ∈ l, SameReport (f x) (g x)) (r : RepeatEntry) :
    roundIn (l.map g) r = roundIn (l.map f) r := by
  unfold roundIn
  rw [List.any_map, List.any_map]
  induction l with
  | nil => rfl
  | cons x xs ih =>
    obtain ⟨index, round, _⟩ := h x List.mem_cons_self
    rw [List.any_cons, List.any_cons, ih fun y hy => h y (List.mem_cons_of_mem x hy)]
    simp only [Function.comp_apply, index, round]

theorem leftOver_sameReport {f g : Entry → Entry} {l : List Entry} (h : ∀ x ∈ l, SameReport (f x) (g x))
    {table left : List RepeatEntry} {t : Trunk} (k : LeftOver table t (l.map g) left) : LeftOver table t (l.map f) left := by
  refine ⟨k.1, fun r => ?_⟩
  rw [k.2 r, roundIn_sameReport h]

theorem sameReport_of_reconditioned {s : State} {t : Trunk} {x y : Entry} (h : Reconditioned s t x y) : SameReport x y := by
  obtain ⟨c, rfl, _⟩ := h
  exact ⟨rfl, rfl, rfl, rfl, rfl⟩

/-! ### Distinct indices -/

/-- An index that stands twice in a list stands there at least twice. -/
theorem nodup_of_count {α : Type} {f : α → Nat} {l : List α} (h : ∀ i, (l.filter (fun x => f x == i)).length ≤ 1) :
    (l.map f).Nodup := by
  induction l with
  | nil => exact List.nodup_nil
  | cons x xs ih =>
    rw [List.map_cons, List.nodup_cons]
    refine ⟨fun hx => ?_, ih fun i => ?_⟩
    · obtain ⟨y, hy, eq⟩ := List.mem_map.1 hx
      have two := h (f x)
      rw [List.filter_cons, if_pos (beq_iff_eq.2 rfl), List.length_cons] at two
      have : 0 < (xs.filter (fun z => f z == f x)).length :=
        List.length_pos_of_mem (List.mem_filter.2 ⟨hy, beq_iff_eq.2 eq⟩)
      omega
    · refine Nat.le_trans (List.Sublist.length_le ?_) (h i)
      exact List.Sublist.filter _ (List.sublist_cons_self x xs)

/-- Where the held map is kept, each index stands once in a list and once in the repeat table (R77). -/
theorem distinctOn_of_heldMapKept {s : State} (h : HeldMapKept s) (t : Trunk) : DistinctOn s t := by
  obtain ⟨⟨front, _, _, exact⟩, rounds, _⟩ := h
  refine ⟨(rounds t).1, nodup_of_count fun i => ?_⟩
  have one := Bool.toNat_le (s.sweeper.held.getLsbD i)
  rw [← exact i] at one
  unfold holders at one
  omega

/-! ### Trunk off (R46, R102) -/

theorem offDue_iff (e : Engine) : e.offDue = true ↔
    e.pendingOff = true ∧ (e.state = .idle ∨ e.state = .holding ∨ e.state = .stuck) ∧ e.attempt = none := by
  unfold Engine.offDue
  cases e.state <;> simp [EngineState.atRest]

theorem keepsTrunkOff_iff (s : State) : s.keepsTrunkOff = true ↔
    s.session.state = .standby ∧ Config.trunkOffWaits = true := by
  unfold State.keepsTrunkOff
  rw [Bool.and_eq_true, beq_iff_eq]

/-- The trunk-off processing empties the trunk. -/
theorem trunkOffProcessing_empties (s : State) (t : Trunk) :
    (s.trunkOffProcessing t).list t = [] ∧ ∀ r ∈ (s.trunkOffProcessing t).sched.repeats, r.copy.trunk ≠ t :=
  finishTrunk_empties _ t _ _

theorem handOn_engines (s : State) (x : Entry) (c : ResultCode) (w : Word) : (s.handOn x c w).engines = s.engines := by
  unfold State.handOn State.roundEnded
  dsimp only
  repeat' split
  all_goals rfl

theorem handOnAll_engines (c : ResultCode) (w : Word) (l : List Entry) (s : State) :
    (handOnAll c w l s).engines = s.engines := by
  induction l generalizing s with
  | nil => rfl
  | cons x xs ih => exact (ih _).trans (handOn_engines s x c w)

/-- Where nothing is armed, the processing changes no engine. -/
theorem finishTrunk_engines {s : State} {t : Trunk} (off : (s.engine t).armed = none) (c : ResultCode) (w : Word) :
    (s.finishTrunk t c w).engines = s.engines := by
  have eq := finishTrunk_eq s t c w
  dsimp only at eq
  rw [eq, endRepeats_eq]
  show (handOnAll c w (s.list t) ((s.withdraw t).setList t [])).engines = s.engines
  rw [handOnAll_engines, withdraw_of_none off]
  rfl

/-- The engine that has entered OFF (R25, R46, R48). -/
theorem enterOff_armed (e : Engine) : e.enterOff.armed = none := rfl

theorem exec_trunkOff {s : State} {t : Trunk} (due : (s.engine t).offDue = true) :
    exec (.trunkOff t) s = .next ((s.setEngine t (s.engine t).enterOff).takeOffReport t) :=
  congrArg Host.Outcome.next (if_pos due)

/-- From `r` to `v` the trunk-off processing of a trunk has been made (R102, R116). -/
def TrunkProcessed (r v : State) (t : Trunk) : Prop :=
  v.list t = [] ∧ (∀ r ∈ v.sched.repeats, r.copy.trunk ≠ t)
    ∧ (DistinctOn r t →
        ∃ left : List RepeatEntry,
          LeftOver r.sched.repeats t (r.list t) left
          ∧ v.sched =
              { r.sched with
                lists := r.sched.lists.set t []
                repeats := tableAfter r.sched.repeats t (r.list t)
                offDone := r.sched.offDone.set t true }
          ∧ v.results =
              { r.results with
                queue := r.results.queue
                  ++ trunkEnds r.sched.repeats (r.list t) left .trunkOff r.session.deviceTime })

theorem trunkProcessed_of (r : State) (t : Trunk) : TrunkProcessed r (r.trunkOffProcessing t) t := by
  obtain ⟨list, repeats⟩ := trunkOffProcessing_empties r t
  refine ⟨list, repeats, fun distinct => ?_⟩
  obtain ⟨left, leftOver, eq⟩ := trunkOffProcessing_eq r t distinct
  rw [eq]
  exact ⟨left, leftOver, rfl, rfl⟩

/-- What is done with a trunk-off report: the engine and the rest stay, and the entries end, now or when STANDBY is left
(R102, R105, R169). -/
theorem takeOffReport_parts {r : State} {t : Trunk} (off : (r.engine t).armed = none) :
    let v := r.takeOffReport t
    v.engines = r.engines
      ∧ (r.schedulerLive = false → v.sched = r.sched ∧ v.results = r.results)
      ∧ (r.schedulerLive = true → r.session.state ≠ .standby → TrunkProcessed r v t)
      ∧ (r.session.state = .standby →
          (Config.trunkOffWaits = true
            ∧ v.sched = { r.sched with offOwed := r.sched.offOwed.set t true } ∧ v.results = r.results)
          ∨ (Config.trunkOffWaits = false ∧ TrunkProcessed r v t)) := by
  dsimp only
  rcases takeOffReport_cases r t with ⟨dead, h⟩ | ⟨standby, waits, h⟩ | ⟨live, now, h⟩
  · rw [h]
    refine ⟨rfl, fun _ => ⟨rfl, rfl⟩, fun live => ?_, fun standby => ?_⟩
    · rw [dead] at live
      cases live
    · rw [State.schedulerLive, standby] at dead
      cases dead
  · rw [h]
    refine ⟨rfl, fun dead => ?_, fun _ awake => absurd standby awake, fun _ => .inl ⟨waits, rfl, rfl⟩⟩
    rw [State.schedulerLive, standby] at dead
    cases dead
  · rw [h]
    refine ⟨finishTrunk_engines (s := r.setOffDone t true) off _ _, fun dead => ?_, fun _ _ => trunkProcessed_of r t,
      fun standby => .inr ⟨now.resolve_left fun k => k standby, trunkProcessed_of r t⟩⟩
    rw [live] at dead
    cases dead

/-- Settles O52: a trunk enters OFF when it has no frame and owes no outcome, and its entries end. -/
theorem trunkOff : Obligations.TrunkOff := by
  intro s t e
  refine ⟨fun pending st own => ?_, fun not => ?_⟩
  · have ran := exec_trunkOff ((offDue_iff e).2 ⟨pending, st, own⟩)
    have sends := sendsOn_takeOffReport (s.setEngine t e.enterOff) t
    obtain ⟨engines, frozen, live, standby⟩ := takeOffReport_parts (r := s.setEngine t e.enterOff) (t := t)
      (by rw [engine_setEngine_same]; rfl)
    have engine : ((s.setEngine t e.enterOff).takeOffReport t).engine t = e.enterOff := by
      rw [State.engine, engines]
      exact engine_setEngine_same s t _
    refine ⟨_, ran, engine, ?_, fun o ne => ?_, keeps_trans (keeps_setEngine s t _) sends.elsewhere, sends.director,
      sends.regs, frozen, live, standby⟩
    · rw [engine]
      rfl
    · exact ⟨(sends.others o ne).1.trans (engine_setEngine_other s t o _ ne), (sends.others o ne).2⟩
  · refine congrArg Host.Outcome.next (if_neg fun due => ?_)
    obtain ⟨pending, st, own⟩ := (offDue_iff e).1 due
    rcases not with h | ⟨idle, holding, stuck⟩ | h
    · rw [pending] at h
      cases h
    · rcases st with k | k | k
      · exact idle k
      · exact holding k
      · exact stuck k
    · exact h own

end Sys2Proof.Proofs

/-! SUPPORT. The outcome of an attempt (O50; R91, R100, R104). -/

namespace Sys2Proof.Proofs

open Sys2Proof.Machine Sys2Proof.Laws Sys2Proof.Safety

/-! ### The decision on an entry (R91) -/

/-- An entry stays after an attempt, with a condition and a retry flag (R91). -/
def keptEntry (o : AttemptOutcome) (c : Condition) (retry : Bool) (x : Entry) : Entry :=
  { x.record o with condition := c, retry := retry }

/-- An entry stays: the state before the selection. -/
def keeping (s : State) (t : Trunk) (i : Nat) (o : AttemptOutcome) (c : Condition) (retry : Bool) : State :=
  s.updateEntry t i (keptEntry o c retry)

/-- The outcome with which an attempt ends its entry, if it does (R91). -/
def endingOf (x : Entry) (o : AttemptOutcome) : Option ResultCode :=
  if o = .accepted then some .accepted
  else if o = .sent then some .sent
  else if x.endMark = .cancelled then some .cancelled
  else if x.endMark = .expired then some .expired
  else if o = .lost then none
  else if x.copy.retries < (x.record o).failures then some (exhaustedBy o)
  else none

/-- The condition and the retry flag of an entry that stays (R91). -/
def stayingAs (s : State) (t : Trunk) (o : AttemptOutcome) : Condition × Bool :=
  if o = .lost then (.waiting, false)
  else if o = .busy then (.resting (s.sched.backoff.get t) s.now, false)
  else (.waiting, true)

/-- The state before the end of an entry: an accepted attempt has flipped its toggle (R100). -/
def toggled (s : State) (t : Trunk) (x : Entry) (o : AttemptOutcome) : State :=
  if o = .accepted then s.flipToggle t x.copy.dest else s

/-- The cases of R91: the entry ends, or it stays. -/
theorem decideEntry_eq (s : State) (t : Trunk) (x : Entry) (o : AttemptOutcome) :
    s.decideEntry t (x.record o) o =
      match endingOf x o with
      | some code => (toggled s t x o).finishEntry t (x.record o) code s.now
      | none => keeping s t x.index o (stayingAs s t o).1 (stayingAs s t o).2 := by
  unfold State.decideEntry endingOf toggled stayingAs
  by_cases accepted : o = .accepted
  · rw [if_pos accepted, if_pos accepted, if_pos accepted]
    rfl
  · rw [if_neg accepted, if_neg accepted, if_neg accepted]
    by_cases sent : o = .sent
    · rw [if_pos sent, if_pos sent]
    · rw [if_neg sent, if_neg sent]
      by_cases cancelled : x.endMark = .cancelled
      · rw [if_pos (show (x.record o).endMark = .cancelled from cancelled), if_pos cancelled]
      · rw [if_neg (show ¬ (x.record o).endMark = .cancelled from cancelled), if_neg cancelled]
        by_cases expired : x.endMark = .expired
        · rw [if_pos (show (x.record o).endMark = .expired from expired), if_pos expired]
        · rw [if_neg (show ¬ (x.record o).endMark = .expired from expired), if_neg expired]
          by_cases lost : o = .lost
          · rw [if_pos lost, if_pos lost, if_pos lost]
            rfl
          · rw [if_neg lost, if_neg lost, if_neg lost]
            by_cases spent : x.copy.retries < (x.record o).failures
            · rw [if_pos (show (x.record o).copy.retries < (x.record o).failures from spent), if_pos spent]
            · rw [if_neg (show ¬ (x.record o).copy.retries < (x.record o).failures from spent), if_neg spent]
              by_cases busy : o = .busy
              · rw [if_pos busy, if_pos busy]
                rfl
              · rw [if_neg busy, if_neg busy]
                rfl

theorem failures_record {x : Entry} {o : AttemptOutcome} (h : o = .busy ∨ o = .noReply ∨ o = .shape) :
    (x.record o).failures = x.failures + 1 := if_pos h

/-- The ending of an entry without an end mark whose budget is spent, by the failure (R91). -/
theorem endingOf_spent {x : Entry} {o : AttemptOutcome} (unmarked : x.endMark = .none)
    (failed : o = .busy ∨ o = .noReply ∨ o = .shape) (spent : x.copy.retries < x.failures + 1) :
    endingOf x o = some (exhaustedBy o) := by
  rw [← failures_record failed] at spent
  unfold endingOf
  rw [unmarked]
  rcases failed with rfl | rfl | rfl
  · exact if_pos spent
  · exact if_pos spent
  · exact if_pos spent

theorem endingOf_left {x : Entry} {o : AttemptOutcome} (unmarked : x.endMark = .none)
    (failed : o = .busy ∨ o = .noReply ∨ o = .shape) (left : x.failures + 1 ≤ x.copy.retries) :
    endingOf x o = none := by
  have notSpent : ¬ x.copy.retries < (x.record o).failures := by
    rw [failures_record failed]
    omega
  unfold endingOf
  rw [unmarked]
  rcases failed with rfl | rfl | rfl
  · exact if_neg notSpent
  · exact if_neg notSpent
  · exact if_neg notSpent

theorem endingOf_lost {x : Entry} (unmarked : x.endMark = .none) : endingOf x .lost = none := by
  unfold endingOf
  rw [unmarked]
  rfl

theorem endingOf_marked {x : Entry} {o : AttemptOutcome} (accepted : o ≠ .accepted) (sent : o ≠ .sent) :
    (x.endMark = .cancelled → endingOf x o = some .cancelled) ∧ (x.endMark = .expired → endingOf x o = some .expired) := by
  unfold endingOf
  rw [if_neg accepted, if_neg sent]
  refine ⟨fun h => if_pos h, fun h => ?_⟩
  rw [if_neg (by rw [h]; decide), if_pos h]

/-- The state after the decision, before the selection (R91). -/
def decided (s : State) (t : Trunk) (x : Entry) (o : AttemptOutcome) : State := s.decideEntry t (x.record o) o

theorem outcome_dead {s : State} (dead : s.schedulerLive = false) (t : Trunk) (i : Nat) (o : AttemptOutcome) :
    s.outcome t i o = s := if_neg (by rw [dead]; exact Bool.false_ne_true)

theorem outcome_live {s : State} {t : Trunk} {i : Nat} {x : Entry} (live : s.schedulerLive = true)
    (found : s.findEntry t i = some x) (o : AttemptOutcome) :
    s.outcome t i o = ((decided s t x o).select t).stopIfClear t := by
  unfold State.outcome
  rw [if_pos live, found]
  rfl

theorem sendsOn_toggled (s : State) (t : Trunk) (x : Entry) (o : AttemptOutcome) : SendsOn t s (toggled s t x o) := by
  unfold toggled
  split
  · exact sendsOn_setSched t rfl rfl rfl
  · exact sendsOn_refl t s

theorem toggled_tables (s : State) (t : Trunk) (x : Entry) (o : AttemptOutcome) :
    (toggled s t x o).list t = s.list t ∧ (toggled s t x o).sched.repeats = s.sched.repeats
      ∧ (toggled s t x o).results = s.results := by
  unfold toggled
  split
  · exact ⟨rfl, rfl, rfl⟩
  · exact ⟨rfl, rfl, rfl⟩

/-- An entry ends by its attempt: the lists and the tables after the selection (R86, R91). -/
theorem decided_ends {s : State} {t : Trunk} {x : Entry} {o : AttemptOutcome} {code : ResultCode}
    (ending : endingOf x o = some code) :
    let v := (decided s t x o).select t
    (v.list t).map Entry.index = ((s.list t).map Entry.index).filter (fun j => j != x.index)
      ∧ (s.schedulerLive = true → (s.engine t).takesArming = true → Selected v t)
      ∧ SendsOn t s v ∧ v.results = (s.handOn (x.record o) code s.now).results
      ∧ v.sched.repeats = (s.handOn (x.record o) code s.now).sched.repeats
      ∧ v.sched = { (toggled s t x o).sched with lists := v.sched.lists, repeats := v.sched.repeats } := by
  have eq : decided s t x o = (toggled s t x o).finishEntry t (x.record o) code s.now := by
    rw [decided, decideEntry_eq, ending]
  obtain ⟨lists, repeats, results⟩ := toggled_tables s t x o
  rw [eq]
  exact finishSelect_parts (sendsOn_toggled s t x o) lists repeats results (x.record o) code s.now

/-- An entry stays after its attempt (R91). -/
theorem decided_stays {s : State} {t : Trunk} {x : Entry} {o : AttemptOutcome} (ending : endingOf x o = none) :
    decided s t x o = keeping s t x.index o (stayingAs s t o).1 (stayingAs s t o).2 := by
  rw [decided, decideEntry_eq, ending]

theorem stopIfClear_not {s : State} {t : Trunk} (st : s.session.state ≠ .stopping) : s.stopIfClear t = s :=
  if_neg fun h => st h.1

/-- Where an entry stays resting, no selection arms it. -/
theorem keeping_condition {s : State} {t : Trunk} {i : Nat} {o : AttemptOutcome} {c : Condition} {retry : Bool}
    {x y : Entry} (index : x.index = i) (kept : c = .waiting ∨ ∃ ms began, c = .resting ms began)
    (h : Reconditioned (keeping s t i o c retry) t (keptEntry o c retry x) y) :
    y.condition = c ∨ (c = .waiting ∧ y.condition = .armed) := by
  obtain ⟨k, rfl, cond⟩ := h
  rcases cond with same | ⟨armed, _⟩ | ⟨armed, e, mem, ok, same⟩
  · exact .inl same
  · have armed : c = .armed := armed
    rcases kept with h | ⟨ms, began, h⟩
    · rw [h] at armed
      cases armed
    · rw [h] at armed
      cases armed
  · rcases kept with h | ⟨ms, began, h⟩
    · exact .inr ⟨h, armed⟩
    · unfold keeping at mem
      rw [updateEntry_list, List.mem_map] at mem
      obtain ⟨z, _, rfl⟩ := mem
      have own : z.index = i := by
        by_contra other
        rw [if_neg other] at same
        exact other (same.trans index)
      rw [if_pos own, eligible_iff] at ok
      have cond : c = .waiting ∨ c = .armed := ok.1
      rw [h] at cond
      rcases cond with k | k <;> cases k

/-! ### The two ways an attempt leaves its entry, before STOP -/

/-- The entry has finished with `code`: it is in no list, and its report is handed on (R86, R91). -/
theorem ends_parts {s : State} {t : Trunk} {i : Nat} {x : Entry} {o : AttemptOutcome} {code : ResultCode}
    (found : s.findEntry t i = some x) (ending : endingOf x o = some code) :
    let v := (decided s t x o).select t
    let losses := if o = .lost then min 255 (x.losses + 1) else x.losses
    let ended := s.roundEnded i code { last := some o, attempts := x.attempts, losses := losses } s.session.deviceTime
    (∀ y ∈ v.list t, y.index ≠ i)
      ∧ (x.round = true → v.results = ended.results ∧ v.sched.repeats = ended.sched.repeats)
      ∧ (x.round = false →
          v.results.queue = s.results.queue
            ++ [.done i
                { outcome := code, last := some o, attempts := x.attempts, losses := losses
                  stamp := s.session.deviceTime, repeats := 0, overruns := 0 }]) := by
  intro v losses ended
  have index := findEntry_index found
  obtain ⟨indices, _, _, results, repeats, _⟩ := decided_ends (s := s) (t := t) ending
  refine ⟨fun y hy => ?_, fun round => ?_, fun single => ?_⟩
  · have mem : y.index ∈ (v.list t).map Entry.index := List.mem_map_of_mem hy
    rw [indices, List.mem_filter, index] at mem
    exact bne_iff_ne.1 mem.2
  · have handed : s.handOn (x.record o) code s.now = ended := by
      unfold State.handOn
      rw [if_pos (show (x.record o).round = true from round), show (x.record o).index = i from index]
      rfl
    rw [results, repeats, handed]
    exact ⟨rfl, rfl⟩
  · rw [results]
    unfold State.handOn
    rw [if_neg (show ¬ (x.record o).round = true by rw [show (x.record o).round = _ from single]; exact Bool.false_ne_true),
      show (x.record o).index = i from index]
    rfl

/-- The entry stays with a condition and a retry flag, its figures counted (R91). -/
theorem stays_parts {s : State} {t : Trunk} {i : Nat} {x : Entry} {o : AttemptOutcome} {c : Condition} {retry : Bool}
    (found : s.findEntry t i = some x) (kept : c = .waiting ∨ ∃ ms began, c = .resting ms began) :
    let v := (keeping s t i o c retry).select t
    v.results = s.results
      ∧ (v.list t).map Entry.index = (s.list t).map Entry.index
      ∧ ∃ y ∈ v.list t, y.index = i ∧ y.copy = x.copy ∧ y.round = x.round ∧ y.seq = x.seq ∧ y.attempts = x.attempts
          ∧ y.losses = (if o = .lost then min 255 (x.losses + 1) else x.losses)
          ∧ y.failures = (if o = .busy ∨ o = .noReply ∨ o = .shape then x.failures + 1 else x.failures)
          ∧ y.last = some o ∧ y.retry = retry ∧ y.endMark = x.endMark
          ∧ y.joined = x.joined ∧ (y.condition = c ∨ (c = .waiting ∧ y.condition = .armed)) := by
  have index := findEntry_index found
  obtain ⟨_, results, _, indices, _, y, mem, reconditioned⟩ := updateSelect_parts
    (f := keptEntry o c retry) (fun _ => rfl) (fun _ => rfl) found
  have condition := keeping_condition index kept reconditioned
  refine ⟨results, indices, y, mem, ?_⟩
  obtain ⟨k, rfl, _⟩ := reconditioned
  exact ⟨index, rfl, rfl, rfl, rfl, rfl, rfl, rfl, rfl, rfl, rfl, condition⟩

theorem decided_selected {s : State} {t : Trunk} {i : Nat} {x : Entry} (o : AttemptOutcome) (live : s.schedulerLive = true)
    (takes : (s.engine t).takesArming = true) (found : s.findEntry t i = some x) :
    Selected ((decided s t x o).select t) t := by
  cases ending : endingOf x o with
  | some code => exact (decided_ends ending).2.1 live takes
  | none =>
    rw [decided_stays ending]
    rw [findEntry_index found]
    exact (updateSelect_parts (f := keptEntry o _ _) (fun _ => rfl) (fun _ => rfl) found).2.2.1 live takes

/-- What the decision leaves of the scheduler but the lists and the repeat table (R100). -/
theorem decided_sched {s : State} {t : Trunk} {i : Nat} {x : Entry} (o : AttemptOutcome)
    (found : s.findEntry t i = some x) :
    let v := (decided s t x o).select t
    v.sched = { (toggled s t x o).sched with lists := v.sched.lists, repeats := v.sched.repeats }
      ∧ v.session = s.session := by
  cases ending : endingOf x o with
  | some code =>
    obtain ⟨_, _, sends, _, _, sched⟩ := decided_ends (s := s) (t := t) ending
    exact ⟨sched, sends.session⟩
  | none =>
    have notAccepted : o ≠ .accepted := by
      rintro rfl
      cases ending
    obtain ⟨sends, _, _, _, sched, _⟩ := updateSelect_parts
      (f := keptEntry o (stayingAs s t o).1 (stayingAs s t o).2) (fun _ => rfl) (fun _ => rfl) found
    rw [decided_stays ending, findEntry_index found, toggled, if_neg notAccepted]
    refine ⟨?_, sends.session⟩
    unfold keeping
    generalize ((s.updateEntry t i (keptEntry o (stayingAs s t o).1 (stayingAs s t o).2)).select t).sched = q at sched ⊢
    rw [sched]

/-! ### The STOP processing that waited for the outcome (R104, R117) -/

theorem handOnAll_sched (c : ResultCode) (w : Word) (l : List Entry) (s : State) :
    (handOnAll c w l s).sched = { s.sched with repeats := (handOnAll c w l s).sched.repeats } := by
  induction l generalizing s with
  | nil => rfl
  | cons x xs ih =>
    have handed := (handOn_tables (s := s) (v := s) rfl rfl ⟨rfl, rfl⟩ rfl x c w).2
    show (handOnAll c w xs (s.handOn x c w)).sched = _
    rw [ih, handed]
    rfl

theorem finishTrunk_sched (s : State) (t : Trunk) (c : ResultCode) (w : Word) :
    (s.finishTrunk t c w).sched =
      { s.sched with
        lists := (s.finishTrunk t c w).sched.lists, repeats := (s.finishTrunk t c w).sched.repeats } := by
  have eq := finishTrunk_eq s t c w
  dsimp only at eq
  rw [eq, endRepeats_eq]
  have all := handOnAll_sched c w (s.list t) ((s.withdraw t).setList t [])
  have emptied := congrArg State.sched (withdraw_setList s t)
  generalize handOnAll c w (s.list t) ((s.withdraw t).setList t []) = r at all
  dsimp only
  rw [all, emptied]

theorem inFlight_select {s : State} {t : Trunk} (none : ∀ y ∈ s.list t, y.condition ≠ .inFlight) :
    (s.select t).inFlight t = false := by
  obtain ⟨g, list, keeps⟩ := select_entries s t
  unfold State.inFlight
  rw [list, List.any_eq_false]
  intro z hz
  obtain ⟨y, hy, rfl⟩ := List.mem_map.1 hz
  obtain ⟨c, h, cond⟩ := keeps y
  rw [h, beq_iff_eq]
  rcases cond with k | ⟨_, k⟩ | ⟨k, _⟩
  · rw [show ({ y with condition := c } : Entry).condition = c from rfl, k]
    exact none y hy
  · rw [show ({ y with condition := c } : Entry).condition = c from rfl, k]
    exact nofun
  · rw [show ({ y with condition := c } : Entry).condition = c from rfl, k]
    exact nofun

/-- The state in which a trunk's STOP processing is made. -/
def stopMarked (s : State) (t : Trunk) : State :=
  s.setSched { s.sched with stopDone := s.sched.stopDone.set t true }

theorem stopIfClear_of {s : State} {t : Trunk} (st : s.session.state = .stopping) (stopDone : s.sched.stopDone.get t = false)
    (clear : s.inFlight t = false) :
    s.stopIfClear t = (stopMarked s t).finishTrunk t .stopped s.session.deviceTime := if_pos ⟨st, stopDone, clear⟩

/-- No entry but that of the index is in flight: none is once its attempt is over. -/
theorem decided_clear {s : State} {t : Trunk} {i : Nat} {x : Entry} (o : AttemptOutcome)
    (found : s.findEntry t i = some x) (single : ∀ y ∈ s.list t, y.index ≠ i → y.condition ≠ .inFlight) :
    ((decided s t x o).select t).inFlight t = false := by
  have index := findEntry_index found
  refine inFlight_select fun y hy => ?_
  cases ending : endingOf x o with
  | some code =>
    rw [decided, decideEntry_eq, ending] at hy
    have mem := (finishEntry_list (toggled s t x o) t t (x.record o) code s.now) ▸ hy
    rw [if_pos rfl, List.mem_filter, (toggled_tables s t x o).1] at mem
    exact single y mem.1 fun own => bne_iff_ne.1 mem.2 (own.trans index.symm)
  | none =>
    rw [decided_stays ending, keeping, updateEntry_list, List.mem_map] at hy
    obtain ⟨z, mem, rfl⟩ := hy
    by_cases own : z.index = x.index
    · rw [if_pos own]
      show (stayingAs s t o).1 ≠ _
      unfold stayingAs
      split
      · exact nofun
      · split
        · exact nofun
        · exact nofun
    · rw [if_neg own]
      exact single z mem fun k => own (k.trans index.symm)

/-- A trunk's STOP processing after the outcome of its last attempt: nothing is left of the trunk. -/
theorem outcome_stops {s : State} {t : Trunk} {i : Nat} {x : Entry} (o : AttemptOutcome) (st : s.session.state = .stopping)
    (stopDone : s.sched.stopDone.get t = false) (found : s.findEntry t i = some x)
    (single : ∀ y ∈ s.list t, y.index ≠ i → y.condition ≠ .inFlight) :
    s.outcome t i o = (stopMarked ((decided s t x o).select t) t).finishTrunk t .stopped s.session.deviceTime := by
  obtain ⟨sched, session⟩ := decided_sched o found
  have live : s.schedulerLive = true := by rw [State.schedulerLive, st]
  have notYet : ((decided s t x o).select t).sched.stopDone.get t = false := by
    rw [sched]
    show (toggled s t x o).sched.stopDone.get t = false
    unfold toggled
    split
    · exact stopDone
    · exact stopDone
  rw [outcome_live live found, stopIfClear_of (by rw [session]; exact st) notYet (decided_clear o found single), session]

theorem nodup_handOn {s : State} (h : (s.sched.repeats.map RepeatEntry.index).Nodup) (x : Entry) (code : ResultCode)
    (w : Word) : ((s.handOn x code w).sched.repeats.map RepeatEntry.index).Nodup := by
  have filtered : ∀ j, ((s.sched.repeats.filter (fun r => r.index != j)).map RepeatEntry.index).Nodup := fun j =>
    List.Nodup.sublist (List.Sublist.map _ List.filter_sublist) h
  unfold State.handOn State.roundEnded
  split
  · split
    · exact h
    · rename_i r found
      have index := findRepeat_index found
      dsimp only
      split
      · split
        · exact filtered _
        · split
          · exact filtered _
          · show ((s.sched.repeats.map _).map RepeatEntry.index).Nodup
            have same : (s.sched.repeats.map (fun y => if y.index = x.index then r.counted x.figures else y)).map
                RepeatEntry.index = s.sched.repeats.map RepeatEntry.index := by
              rw [List.map_map]
              refine List.map_congr_left fun y _ => ?_
              rw [Function.comp_apply]
              split
              · rename_i own
                exact index.trans own.symm
              · rfl
            rw [same]
            exact h
      · exact filtered _
  · exact h

/-- The STOP processing ends a list that reports what another of the same entries reports (R104). -/
theorem stopMarked_ends {w : State} {t : Trunk} {l : List Entry} {f g : Entry → Entry} (list : w.list t = l.map g)
    (same : ∀ y ∈ l, SameReport (f y) (g y)) (distinct : DistinctOn w t) (moment : Word) :
    ∃ left : List RepeatEntry, LeftOver w.sched.repeats t (l.map f) left
      ∧ ((stopMarked w t).finishTrunk t .stopped moment).results.queue
          = w.results.queue ++ trunkEnds w.sched.repeats (l.map f) left .stopped moment := by
  obtain ⟨left, leftOver, eq⟩ := finishTrunk_uncounted (stopMarked w t) t .stopped rfl moment distinct
  have listed : (stopMarked w t).list t = l.map g := list
  rw [listed] at leftOver eq
  refine ⟨left, leftOver_sameReport same leftOver, ?_⟩
  rw [eq]
  show w.results.queue ++ trunkEnds w.sched.repeats (l.map g) left .stopped moment = _
  rw [trunkEnds_sameReport same]

/-- What the STOP processing hands on after an attempt that has ended its entry (R91, R104). -/
theorem stops_ended {s : State} {t : Trunk} {i : Nat} {x : Entry} {o : AttemptOutcome} {code : ResultCode}
    (st : s.session.state = .stopping) (stopDone : s.sched.stopDone.get t = false) (found : s.findEntry t i = some x)
    (single : ∀ y ∈ s.list t, y.index ≠ i → y.condition ≠ .inFlight) (kept : HeldMapKept s)
    (ending : endingOf x o = some code) :
    let u := s.handOn (x.record o) code s.session.deviceTime
    let l := (s.list t).filter (fun y => y.index != i)
    ∃ left : List RepeatEntry, LeftOver u.sched.repeats t l left
      ∧ (s.outcome t i o).results.queue
          = u.results.queue ++ trunkEnds u.sched.repeats l left .stopped s.session.deviceTime := by
  intro u l
  obtain ⟨indices, _, _, results, repeats, _⟩ := decided_ends (s := s) (t := t) ending
  obtain ⟨nodup, table⟩ := distinctOn_of_heldMapKept kept t
  obtain ⟨g, list, keeps⟩ := select_entries (decided s t x o) t
  have base : (decided s t x o).list t = l := by
    rw [decided, decideEntry_eq, ending]
    show ((toggled s t x o).finishEntry t (x.record o) code s.now).list t = _
    rw [finishEntry_list, if_pos rfl, (toggled_tables s t x o).1, show (x.record o).index = i from findEntry_index (x := x) found]
  rw [base] at list
  have distinct : DistinctOn ((decided s t x o).select t) t := by
    refine ⟨?_, ?_⟩
    · rw [indices]
      exact nodup.filter _
    · rw [repeats]
      exact nodup_handOn table _ _ _
  have ends := stopMarked_ends (f := id) list (fun y _ => sameReport_of_reconditioned (keeps y)) distinct
    s.session.deviceTime
  rw [repeats, results, List.map_id] at ends
  rw [outcome_stops o st stopDone found single]
  exact ends

/-- An entry of the list as its attempt leaves it, for what it reports (R91). -/
def recordedEntry (i : Nat) (o : AttemptOutcome) (x y : Entry) : Entry :=
  if y.index = i then { x with last := some o, losses := if o = .lost then min 255 (x.losses + 1) else x.losses } else y

/-- What the STOP processing hands on after an attempt that leaves its entry in the list (R91, R104). -/
theorem stops_recorded {s : State} {t : Trunk} {i : Nat} {x : Entry} {o : AttemptOutcome}
    (st : s.session.state = .stopping) (stopDone : s.sched.stopDone.get t = false) (found : s.findEntry t i = some x)
    (single : ∀ y ∈ s.list t, y.index ≠ i → y.condition ≠ .inFlight) (kept : HeldMapKept s)
    (ending : endingOf x o = none) :
    let l := (s.list t).map (recordedEntry i o x)
    ∃ left : List RepeatEntry, LeftOver s.sched.repeats t l left
      ∧ (s.outcome t i o).results.queue
          = s.results.queue ++ trunkEnds s.sched.repeats l left .stopped s.session.deviceTime := by
  intro l
  have index := findEntry_index found
  obtain ⟨nodup, table⟩ := distinctOn_of_heldMapKept kept t
  have eq := decided_stays (s := s) (t := t) ending
  rw [index] at eq
  obtain ⟨_, results, _, indices, sched, _⟩ := updateSelect_parts
    (f := keptEntry o (stayingAs s t o).1 (stayingAs s t o).2) (fun _ => rfl) (fun _ => rfl) found
  obtain ⟨g, list, keeps⟩ := select_entries (keeping s t i o (stayingAs s t o).1 (stayingAs s t o).2) t
  have repeats : ((keeping s t i o (stayingAs s t o).1 (stayingAs s t o).2).select t).sched.repeats = s.sched.repeats := by
    show ((s.updateEntry t i (keptEntry o (stayingAs s t o).1 (stayingAs s t o).2)).select t).sched.repeats = _
    rw [sched]
  have distinct : DistinctOn ((keeping s t i o (stayingAs s t o).1 (stayingAs s t o).2).select t) t :=
    ⟨indices ▸ nodup, repeats ▸ table⟩
  rw [show (keeping s t i o (stayingAs s t o).1 (stayingAs s t o).2).list t = _ from updateEntry_list s t i _,
    List.map_map] at list
  have same : ∀ y ∈ s.list t, SameReport (recordedEntry i o x y)
      (g (if y.index = i then keptEntry o (stayingAs s t o).1 (stayingAs s t o).2 y else y)) := by
    intro y hy
    by_cases own : y.index = i
    · have hx : y = x := List.inj_on_of_nodup_map nodup hy (findEntry_mem found) (own.trans index.symm)
      unfold recordedEntry
      rw [if_pos own, if_pos own, hx]
      obtain ⟨c, h, _⟩ := keeps (keptEntry o (stayingAs s t o).1 (stayingAs s t o).2 x)
      rw [h]
      exact ⟨rfl, rfl, rfl, rfl, rfl⟩
    · unfold recordedEntry
      rw [if_neg own, if_neg own]
      exact sameReport_of_reconditioned (keeps y)
  have ends := stopMarked_ends (f := recordedEntry i o x) list same distinct s.session.deviceTime
  rw [repeats, show ((keeping s t i o (stayingAs s t o).1 (stayingAs s t o).2).select t).results = _ from results] at ends
  rw [outcome_stops o st stopDone found single, eq]
  exact ends

/-- Settles O50: an outcome ends its entry or leaves it in the list, and the STOP processing that waited for it follows. -/
theorem outcomeDecided : Obligations.OutcomeDecided := by
  intro s t i o x v losses failures finishes stays
  refine ⟨fun dead => outcome_dead dead t i o, fun live found notStopping => ?_, fun st stopDone found single => ?_⟩
  · have index := findEntry_index found
    obtain ⟨sched, session⟩ := decided_sched o found
    have hv : v = (decided s t x o).select t := by
      show s.outcome t i o = _
      rw [outcome_live live found, stopIfClear_not (by rw [session]; exact notStopping)]
    have ends : ∀ code, endingOf x o = some code → finishes code := by
      intro code ending
      have parts := ends_parts found ending
      rw [← hv] at parts
      exact parts
    have kept : ∀ c retry, endingOf x o = none → stayingAs s t o = (c, retry) →
        (c = .waiting ∨ ∃ ms began, c = .resting ms began) → stays c retry := by
      intro c retry ending choice known
      have parts := stays_parts (o := o) (retry := retry) found known
      have eq := decided_stays (s := s) (t := t) ending
      rw [choice, index] at eq
      rw [← eq, ← hv] at parts
      exact parts
    have endMarks := fun accepted sent => endingOf_marked (x := x) (o := o) accepted sent
    refine ⟨fun takes => hv ▸ decided_selected o live takes found, fun accepted => ⟨ends _ ?_, ?_, fun z ne => ?_⟩,
      fun notAccepted => ?_, fun sent => ends _ ?_, fun notAccepted notSent => ⟨fun marked => ends _ ?_,
      fun marked => ends _ ?_, fun unmarked => ⟨fun lost => ?_, fun busy spent => ?_, fun noReply spent => ?_,
      fun shape spent => ?_, fun busy left => ?_, fun failed left => ?_⟩⟩⟩
    · rw [accepted]
      rfl
    · rw [hv, sched]
      show (toggled s t x o).sched.toggles.get t = _
      rw [toggled, if_pos accepted]
      exact get_set_same _ _ _
    · rw [hv, sched]
      show (toggled s t x o).sched.toggles.get z = _
      rw [toggled, if_pos accepted]
      exact get_set_other _ _ _ _ ne
    · rw [hv, sched]
      show (toggled s t x o).sched.toggles = _
      rw [toggled, if_neg notAccepted]
    · rw [sent]
      rfl
    · exact (endMarks notAccepted notSent).1 marked
    · exact (endMarks notAccepted notSent).2 marked
    · refine kept _ _ ?_ ?_ (.inl rfl)
      · rw [lost]
        exact endingOf_lost unmarked
      · rw [lost]
        rfl
    · rw [show finishes .busyExhausted ↔ finishes (exhaustedBy o) by rw [busy]; rfl]
      exact ends _ (endingOf_spent unmarked (.inl busy) spent)
    · rw [show finishes .noReplyExhausted ↔ finishes (exhaustedBy o) by rw [noReply]; rfl]
      exact ends _ (endingOf_spent unmarked (.inr (.inl noReply)) spent)
    · rw [show finishes .shapeExhausted ↔ finishes (exhaustedBy o) by rw [shape]; rfl]
      exact ends _ (endingOf_spent unmarked (.inr (.inr shape)) spent)
    · refine kept _ _ (endingOf_left unmarked (.inl busy) left) ?_ (.inr ⟨_, _, rfl⟩)
      rw [busy]
      rfl
    · refine kept _ _ (endingOf_left unmarked (.inr failed) left) ?_ (.inl rfl)
      rcases failed with h | h
      · rw [h]
        rfl
      · rw [h]
        rfl
  · have stops := outcome_stops o st stopDone found single
    have hv : v = _ := stops
    obtain ⟨list, repeats⟩ := finishTrunk_empties (stopMarked ((decided s t x o).select t) t) t .stopped s.session.deviceTime
    refine ⟨by rw [hv]; exact list, ?_, by rw [hv]; exact repeats, fun held => ?_⟩
    · rw [hv, finishTrunk_sched]
      exact get_set_same _ _ _
    · intro first others stopsWith recorded
      have ended : ∀ code, endingOf x o = some code → stopsWith (first code) others := fun code =>
        stops_ended st stopDone found single held
      have stayed : endingOf x o = none → stopsWith s recorded := stops_recorded st stopDone found single held
      have endMarks := fun accepted sent => endingOf_marked (x := x) (o := o) accepted sent
      refine ⟨fun accepted => ended _ ?_, fun sent => ended _ ?_, fun notAccepted notSent => ⟨fun marked => ended _ ?_,
        fun marked => ended _ ?_, fun unmarked => ⟨fun lost => stayed ?_, fun failed left => stayed ?_,
        fun busy spent => ended _ ?_, fun noReply spent => ended _ ?_, fun shape spent => ended _ ?_⟩⟩⟩
      · rw [accepted]
        rfl
      · rw [sent]
        rfl
      · exact (endMarks notAccepted notSent).1 marked
      · exact (endMarks notAccepted notSent).2 marked
      · rw [lost]
        exact endingOf_lost unmarked
      · exact endingOf_left unmarked failed left
      · rw [endingOf_spent unmarked (.inl busy) spent, busy]
        rfl
      · rw [endingOf_spent unmarked (.inr (.inl noReply)) spent, noReply]
        rfl
      · rw [endingOf_spent unmarked (.inr (.inr shape)) spent, shape]
        rfl

end Sys2Proof.Proofs

/-! SUPPORT. The send-side claims (O20, O21, O22; R74, R84, R102, R104, R108, R110, R116, R117). -/

namespace Sys2Proof.Proofs

open Sys2Proof.Machine Sys2Proof.Laws Sys2Proof.Safety

/-! ### The end of an index, and the claim itself (R69, R74) -/

/-- The end of an index moves the sweep on and may end it; what is held, claimed and reserved stays. -/
theorem indexHandled_rest (s : State) :
    s.indexHandled = { s with sweeper := s.indexHandled.sweeper, header := s.indexHandled.header }
      ∧ s.indexHandled.sweeper.held = s.sweeper.held ∧ s.indexHandled.sweeper.cursor = s.sweeper.cursor
      ∧ s.indexHandled.sweeper.reservation = s.sweeper.reservation := by
  have ends : s.sweepEnds = { s with sweeper := s.sweepEnds.sweeper, header := s.sweepEnds.header }
      ∧ s.sweepEnds.sweeper.held = s.sweeper.held ∧ s.sweepEnds.sweeper.cursor = s.sweeper.cursor
      ∧ s.sweepEnds.sweeper.reservation = s.sweeper.reservation := by
    unfold State.sweepEnds
    dsimp only
    split
    · exact ⟨rfl, rfl, rfl, rfl⟩
    · exact ⟨rfl, rfl, rfl, rfl⟩
  unfold State.indexHandled
  split
  · exact ⟨rfl, rfl, rfl, rfl⟩
  · split
    · exact ⟨rfl, rfl, rfl, rfl⟩
    · split
      · exact ⟨rfl, rfl, rfl, rfl⟩
      · exact ends

/-- The state in which a send-side index has been claimed: the write stands, the index is held, the cursor is behind it, and
nothing is reserved (R74). -/
def claimedSend (s : State) (w : Sweep) (a : Word) : State :=
  { s with
    memory := Memory.write s.memory a.toNat 3#8
    port := { s.port with unit := none }
    sweeper :=
      { s.sweeper with
        held := s.sweeper.held ||| (1#1024 <<< w.index)
        cursor := if w.index + 1 = s.session.f then 0 else w.index + 1, reservation := none } }

theorem exec_claimSend {s : State} {w : Sweep} {a : Word} {c : SendCopy}
    (h : SweeperAccess s w { role := .claim, addr := a, op := .byteWrite [3#8] }) (stage : w.stage = .claim (.send c)) :
    exec .claimWriteDone s = .next ((claimedSend s w a).joinEntry w.index c false).indexHandled := by
  have sweep : ({ freed s with memory := Memory.write s.memory a.toNat 3#8 } : State).sweeper.sweep = some w := h.1
  show Host.Outcome.next (s.completeAs .claim) = _
  rw [completeAs_claim h]
  unfold State.claimWritten
  rw [sweep]
  dsimp only
  rw [stage]
  rfl

theorem exec_claimRepeating {s : State} {w : Sweep} {a : Word} {c : SendCopy} {period : Nat}
    (h : SweeperAccess s w { role := .claim, addr := a, op := .byteWrite [3#8] })
    (stage : w.stage = .claim (.repeating c period)) :
    exec .claimWriteDone s = .next ((claimedSend s w a).joinRepeat w.index c period).indexHandled := by
  have sweep : ({ freed s with memory := Memory.write s.memory a.toNat 3#8 } : State).sweeper.sweep = some w := h.1
  show Host.Outcome.next (s.completeAs .claim) = _
  rw [completeAs_claim h]
  unfold State.claimWritten
  rw [sweep]
  dsimp only
  rw [stage]
  rfl

/-! ### An ordinary entry joins (R84) -/

theorem joinEntry_none {s : State} {c : SendCopy} (none : s.endAtJoining c.trunk = none) (i : Nat) (round : Bool) :
    s.joinEntry i c round = (withJoined s i c round).select c.trunk := by
  rw [joinEntry_eq, none]

/-- The indices of the list once an entry has joined: behind its class and those above it (R84). -/
theorem joinEntry_indices {s : State} {i : Nat} {c : SendCopy} {round : Bool} (none : s.endAtJoining c.trunk = none)
    (order : ClassOrdered (s.list c.trunk)) :
    ((s.joinEntry i c round).list c.trunk).map Entry.index =
      ((s.list c.trunk).filter (fun x => decide (x.copy.cls.code ≤ c.cls.code))).map Entry.index ++ [i]
        ++ ((s.list c.trunk).filter (fun x => decide (c.cls.code < x.copy.cls.code))).map Entry.index := by
  have joined : (withJoined s i c round).list c.trunk
      = joinList (newEntry i c round s.sched.seq s.now) (s.list c.trunk) := get_set_same _ _ _
  rw [joinEntry_none none, select_indices, joined, joinList_eq _ _ order, List.map_append, List.map_cons,
    List.append_assoc]
  rfl

/-- An engine that takes no arming is not changed as an entry joins (R88). -/
theorem joinEntry_engine {s : State} {i : Nat} {c : SendCopy} {round : Bool} (none : s.endAtJoining c.trunk = none)
    (refuses : (s.engine c.trunk).takesArming = false) :
    (s.joinEntry i c round).engine c.trunk = s.engine c.trunk := by
  rw [joinEntry_none none, select_frozen]
  · rfl
  · rintro ⟨_, takes⟩
    exact Bool.false_ne_true (refuses.symm.trans takes)

/-- Settles O20: the entry joins behind its class, and the index has ended. -/
theorem sendClaimCompletes : Obligations.SendClaimCompletes := by
  intro s w a c h stage off notStopped order
  have none : (claimedSend s w a).endAtJoining c.trunk = none :=
    endAtJoining_none _ _ (fun k => Bool.false_ne_true ((notStopped k.1).symm.trans k.2)) off
  obtain ⟨repeats, seq, length, entry, selected, others, rest⟩ := joinEntry_joins (i := w.index) (round := false) none
  have indices := joinEntry_indices (i := w.index) (round := false) none order
  have engine := joinEntry_engine (i := w.index) (round := false) none
  obtain ⟨handled, held, cursor, reservation⟩ := indexHandled_rest ((claimedSend s w a).joinEntry w.index c false)
  refine ⟨_, exec_claimSend h stage, ?_⟩
  rw [held, cursor, reservation, handled]
  generalize (claimedSend s w a).joinEntry w.index c false = v at *
  obtain ⟨⟨⟨memory, session, port, sweeper, _⟩, _⟩, regs, results, director⟩ := rest
  refine ⟨memory, port, ?_, ?_, ?_, seq, indices, entry, fun notUnset notFaulted takes => ?_, engine, others, results,
    director, session, regs⟩
  · rw [sweeper]
    rfl
  · rw [sweeper]
    rfl
  · rw [sweeper]
    rfl
  · have live : (claimedSend s w a).schedulerLive = true := by
      show s.schedulerLive = true
      unfold State.schedulerLive
      cases st : s.session.state with
      | unset => exact absurd st notUnset
      | faulted => exact absurd st notFaulted
      | running | paused | settling | standby | stopping => rfl
    exact selected live takes

/-! ### A claim that ends as it joins (R84, R102, R104, R116, R117) -/

theorem filter_insertBefore {α : Type} (f : α → α → Bool) (p : α → Bool) {x : α} (out : p x = false) (l : List α) :
    (insertBefore f x l).filter p = l.filter p := by
  induction l with
  | nil =>
    unfold insertBefore
    rw [List.filter_cons, if_neg (by rw [out]; exact Bool.false_ne_true)]
  | cons y ys ih =>
    unfold insertBefore
    split
    · rw [List.filter_cons, List.filter_cons, ih]
    · rw [List.filter_cons, if_neg (by rw [out]; exact Bool.false_ne_true)]

/-- An ordinary entry that ends as it joins: it is in no list, and its DONE is handed on (R84). -/
theorem joinEntry_ends {s : State} {i : Nat} {c : SendCopy} {code : ResultCode}
    (some : s.endAtJoining c.trunk = some code) :
    let v := s.joinEntry i c false
    (v.list c.trunk = (s.list c.trunk).filter (fun e => e.index != i) ∧ v.sched.seq = s.sched.seq + 1
        ∧ v.sched.repeats = s.sched.repeats)
      ∧ v.results.queue = s.results.queue
          ++ [.done i
              { outcome := code, last := none, attempts := 0, losses := 0, stamp := s.session.deviceTime
                repeats := 0, overruns := 0 }]
      ∧ SendsOn c.trunk s v := by
  intro v
  have hv : v = (withJoined s i c false).finishEntry c.trunk (newEntry i c false s.sched.seq s.now) code s.now := by
    show s.joinEntry i c false = _
    rw [joinEntry_eq, some]
  have joined : (withJoined s i c false).list c.trunk
      = joinList (newEntry i c false s.sched.seq s.now) (s.list c.trunk) := get_set_same _ _ _
  obtain ⟨results, sched⟩ := finishEntry_tables (s := s) (r := withJoined s i c false) (t := c.trunk) rfl rfl ⟨rfl, rfl⟩ rfl
    (newEntry i c false s.sched.seq s.now) code s.now
  refine ⟨⟨?_, ?_, ?_⟩, ?_, sendsOn_joinEntry s i c false⟩
  · rw [hv, finishEntry_list, if_pos rfl, joined]
    exact filter_insertBefore _ (fun x : Entry => x.index != i) (bne_self_eq_false _) _
  · rw [hv, sched]
    rfl
  · rw [hv, sched]
    rfl
  · rw [hv, results]
    rfl

/-- A repetition that ends as its claim completes: it has no place, and its DONE is handed on (R108). -/
theorem joinRepeat_ends {s : State} {i : Nat} {c : SendCopy} {period : Nat} {code : ResultCode}
    (some : s.endAtJoining c.trunk = some code) :
    let v := s.joinRepeat i c period
    (v.sched.repeats = s.sched.repeats.filter (fun r => r.index != i) ∧ v.sched.lists = s.sched.lists
        ∧ v.sched.seq = s.sched.seq)
      ∧ v.results.queue = s.results.queue
          ++ [.done i
              { outcome := code, last := none, attempts := 0, losses := 0, stamp := s.session.deviceTime
                repeats := 0, overruns := 0 }]
      ∧ SendsOn c.trunk s v := by
  intro v
  have hv : v = (s.setRepeats (s.sched.repeats ++ [newRepeat i c period s.now])).endRepeat (newRepeat i c period s.now)
      code (newRepeat i c period s.now).figures s.now := by
    show s.joinRepeat i c period = _
    rw [joinRepeat_eq, some]
  refine ⟨⟨?_, ?_, ?_⟩, ?_, sendsOn_joinRepeat s i c period⟩
  · rw [hv, endRepeat_eq]
    show (s.sched.repeats ++ [newRepeat i c period s.now]).filter (fun x => x.index != i) = _
    rw [List.filter_append, List.filter_cons, if_neg (by simp [newRepeat]), List.filter_nil, List.append_nil]
  · rw [hv]
    rfl
  · rw [hv]
    rfl
  · rw [hv]
    rfl

/-- What the end of the index and the claim leave of a claim that has ended as it joined. -/
theorem lateClaim_parts {s v : State} {w : Sweep} {a : Word} {t : Trunk} (sends : SendsOn t (claimedSend s w a) v) :
    v.indexHandled.sched = v.sched ∧ v.indexHandled.results = v.results
      ∧ v.indexHandled.sweeper.held = s.sweeper.held ||| (1#1024 <<< w.index)
      ∧ v.indexHandled.sweeper.reservation = none ∧ v.indexHandled.memory = Memory.write s.memory a.toNat 3#8 := by
  obtain ⟨handled, held, _, reservation⟩ := indexHandled_rest v
  have memory : v.memory = Memory.write s.memory a.toNat 3#8 := sends.elsewhere.1.1
  rw [held, reservation, handled, sends.sweeper]
  exact ⟨rfl, rfl, rfl, rfl, memory⟩

/-- Settles O21: a claim that completes after its trunk's processing ends at once. -/
theorem lateClaimFinishes : Obligations.LateClaimFinishes := by
  intro s w a c h finished ends
  have ending : ∀ {kept : State → Prop}, (∀ code, (claimedSend s w a).endAtJoining c.trunk = some code →
      finished code kept) → ends kept := by
    intro kept all
    refine ⟨fun st done => all _ ?_, fun notStopped off => all _ ?_⟩
    · exact endAtJoining_stopped _ _ st done
    · refine endAtJoining_trunkOff _ _ (fun k => ?_) off
      rcases notStopped with st | done
      · exact st k.1
      · exact Bool.false_ne_true (done.symm.trans k.2)
  refine ⟨fun stage => ending fun code joins => ?_, fun period stage => ending fun code joins => ?_⟩
  · obtain ⟨⟨list, seq, repeats⟩, queue, sends⟩ := joinEntry_ends (i := w.index) joins
    obtain ⟨sched, results, held, reservation, memory⟩ := lateClaim_parts sends
    refine ⟨_, exec_claimSend h stage, ⟨?_, ?_, ?_⟩, ?_, held, reservation, memory⟩
    · rw [State.list, sched]
      exact list
    · rw [sched, seq]
      rfl
    · rw [sched, repeats]
      rfl
    · rw [results, queue]
      rfl
  · obtain ⟨⟨repeats, lists, seq⟩, queue, sends⟩ := joinRepeat_ends (i := w.index) (period := period) joins
    obtain ⟨sched, results, held, reservation, memory⟩ := lateClaim_parts sends
    refine ⟨_, exec_claimRepeating h stage, ⟨?_, ?_, ?_⟩, ?_, held, reservation, memory⟩
    · rw [sched, repeats]
      rfl
    · rw [sched, lists]
      rfl
    · rw [sched, seq]
      rfl
    · rw [results, queue]
      rfl

end Sys2Proof.Proofs

/-! SUPPORT. The claim of a repeating envelope (O22; R74, R108, R109, R110). -/

namespace Sys2Proof.Proofs

open Sys2Proof.Machine Sys2Proof.Laws Sys2Proof.Safety

/-! ### A round that joins (R110) -/

theorem exists_nextRound {s : State} {r : RepeatEntry} {since : Word} (mem : r ∈ s.sched.repeats)
    (due : r.round = .due since) : ∃ x, s.nextRound r.copy.trunk = some x ∧ x.copy.trunk = r.copy.trunk := by
  cases next : s.nextRound r.copy.trunk with
  | some x => exact ⟨x, rfl, (nextRound_some next).2.1⟩
  | none =>
    unfold State.nextRound at next
    rw [List.head?_eq_none_iff] at next
    have due' : r ∈ orderBy s.dueBefore
        (s.sched.repeats.filter (fun x => x.copy.trunk == r.copy.trunk && x.dueSince.isSome)) := by
      rw [mem_orderBy, List.mem_filter, Bool.and_eq_true, dueSince_isSome]
      exact ⟨mem, beq_self_eq_true _, since, due⟩
    rw [next] at due'
    cases due'

/-- An engine that takes no arming is not changed as a round joins (R88). -/
theorem joinRound_engine {s : State} {t : Trunk} {r : RepeatEntry} (live : s.schedulerLive = true)
    (st : s.session.state ≠ .stopping) (off : s.sched.offDone.get t = false) (place : s.placesTaken t < 16)
    (next : s.nextRound t = some r) (trunk : r.copy.trunk = t) (refuses : (s.engine t).takesArming = false) :
    (s.joinRound t).engine t = s.engine t := by
  rw [joinRound_of live place next]
  subst trunk
  exact joinEntry_engine (endAtJoining_none _ _ (fun h => st h.1) off) refuses

/-! ### The new repeat entry (R108) -/

/-- The new entry at its first due time. -/
def firstRound (i : Nat) (c : SendCopy) (period : Nat) (now : Word) : RepeatEntry :=
  { laterDue (newRepeat i c period now) with round := .due now }

/-- The table in which the new entry stands, its first round due. -/
def firstRoundDue (s : State) (i : Nat) (c : SendCopy) (period : Nat) : State :=
  madeDue (s.setRepeats (s.sched.repeats ++ [newRepeat i c period s.now])) i (newRepeat i c period s.now)

/-- A repeat entry in the table for the index, its next due time one period on, nothing yet counted. -/
def StandsNew (s : State) (i : Nat) (c : SendCopy) (period : Nat) (now : Word) (round : RoundState → Prop) : Prop :=
  ∃ r ∈ s.sched.repeats, r.index = i ∧ r.copy = c ∧ r.period = period ∧ r.count = 0 ∧ r.overruns = 0
    ∧ r.nextDue = now + BitVec.ofNat 32 period ∧ r.endRequest = false ∧ round r.round

theorem mem_replacedNew {s : State} {i : Nat} {c : SendCopy} {period : Nat} (x : RepeatEntry) :
    x ∈ (replacedRepeat (s.setRepeats (s.sched.repeats ++ [newRepeat i c period s.now])) i x).sched.repeats :=
  List.mem_map.2 ⟨newRepeat i c period s.now, List.mem_append_right _ List.mem_cons_self, if_pos rfl⟩

/-- In RUNNING, PAUSED and SETTLING the first round falls due at once. -/
theorem joinRepeat_running {s : State} {c : SendCopy} (none : s.endAtJoining c.trunk = none)
    (st : s.session.state = .running ∨ s.session.state = .paused ∨ s.session.state = .settling) (i period : Nat) :
    s.joinRepeat i c period = (firstRoundDue s i c period).joinRound c.trunk := by
  rw [joinRepeat_eq, none]
  exact (dueTimeOf_running (s := s.setRepeats (s.sched.repeats ++ [newRepeat i c period s.now]))
    (r := newRepeat i c period s.now) rfl st).1 rfl

/-- In STOPPING the entry stands in the table and no round falls due. -/
theorem joinRepeat_stopping {s : State} {c : SendCopy} (none : s.endAtJoining c.trunk = none)
    (st : s.session.state = .stopping) (i period : Nat) :
    s.joinRepeat i c period
      = replacedRepeat (s.setRepeats (s.sched.repeats ++ [newRepeat i c period s.now])) i
          (laterDue (newRepeat i c period s.now)) := by
  rw [joinRepeat_eq, none]
  exact dueTimeOf_stopping (s := s.setRepeats (s.sched.repeats ++ [newRepeat i c period s.now]))
    (r := newRepeat i c period s.now) rfl st

/-- Where every other entry of the trunk is between rounds or in one, the new entry is the next to join. -/
theorem nextRound_firstRoundDue {s : State} {i : Nat} {c : SendCopy} {period : Nat}
    (alone : ∀ x ∈ s.sched.repeats, x.copy.trunk = c.trunk → ∀ m, x.round ≠ .due m) :
    (firstRoundDue s i c period).nextRound c.trunk = some (firstRound i c period s.now) := by
  refine nextRound_of (since := s.now) (mem_replacedNew _) rfl rfl fun x hx m due trunk ne => ?_
  obtain ⟨y, hy, rfl⟩ := List.mem_map.1 hx
  split at ne
  · exact absurd rfl ne
  · rename_i other
    rw [if_neg other] at due trunk
    rcases List.mem_append.1 hy with old | new
    · exact absurd due (alone y old trunk m)
    · exact absurd (congrArg RepeatEntry.index (List.mem_singleton.1 new)) other

/-- What the first due time makes of the list and the engine when a place is free (R110). -/
theorem firstRoundDue_joins {s : State} {c : SendCopy} (off : s.sched.offDone.get c.trunk = false)
    (st : s.session.state = .running ∨ s.session.state = .paused ∨ s.session.state = .settling)
    (place : s.placesTaken c.trunk < 16) (i period : Nat) :
    let v := (firstRoundDue s i c period).joinRound c.trunk
    StandsNew v i c period s.now (fun k => k = .inRound ∨ k = .due s.now)
      ∧ (v.list c.trunk).length = (s.list c.trunk).length + 1
      ∧ ((∀ x ∈ s.sched.repeats, x.copy.trunk = c.trunk → ∀ m, x.round ≠ .due m) →
          ∃ y ∈ v.list c.trunk, JoinedAs s i c true y)
      ∧ ((s.engine c.trunk).takesArming = true → Selected v c.trunk)
      ∧ ((s.engine c.trunk).takesArming = false → v.engine c.trunk = s.engine c.trunk) := by
  have live : (firstRoundDue s i c period).schedulerLive = true := by
    show s.schedulerLive = true
    unfold State.schedulerLive
    rcases st with st | st | st <;> rw [st]
  have notStopping : (firstRoundDue s i c period).session.state ≠ .stopping := by
    show s.session.state ≠ .stopping
    rcases st with st | st | st <;> rw [st] <;> decide
  have mem : firstRound i c period s.now ∈ (firstRoundDue s i c period).sched.repeats := mem_replacedNew _
  obtain ⟨x, next, trunk⟩ : ∃ x, (firstRoundDue s i c period).nextRound c.trunk = some x ∧ x.copy.trunk = c.trunk :=
    exists_nextRound mem rfl
  obtain ⟨repeats, _, length, ⟨y, hy, joined⟩, selected, _⟩ := joinRound_joins live notStopping off place next trunk
  have engine := joinRound_engine live notStopping off place next trunk
  intro v
  refine ⟨?_, length, fun alone => ⟨y, hy, ?_⟩, selected, engine⟩
  · have stands := List.mem_map_of_mem (f := fun k => if k.index = x.index then { k with round := .inRound } else k) mem
    rw [← repeats] at stands
    refine ⟨_, stands, ?_⟩
    dsimp only
    split
    · exact ⟨rfl, rfl, rfl, rfl, rfl, rfl, rfl, .inl rfl⟩
    · exact ⟨rfl, rfl, rfl, rfl, rfl, rfl, rfl, .inr rfl⟩
  · obtain rfl : firstRound i c period s.now = x := Option.some.inj ((nextRound_firstRoundDue alone).symm.trans next)
    exact joined

/-- Settles O22: a repeating envelope's claim puts its entry in the table, its first round due or joined. -/
theorem repeatClaimCompletes : Obligations.RepeatClaimCompletes := by
  intro s w a c period h stage off st
  obtain ⟨handled, held, cursor, reservation⟩ := indexHandled_rest ((claimedSend s w a).joinRepeat w.index c period)
  have sends := sendsOn_joinRepeat (claimedSend s w a) w.index c period
  refine ⟨_, exec_claimRepeating h stage, ?_⟩
  rw [held, cursor, reservation, sends.sweeper, handled]
  refine ⟨sends.elsewhere.1.1, rfl, rfl, rfl, ?_⟩
  have places : (claimedSend s w a).placesTaken c.trunk = (s.list c.trunk).length := placesTaken_unreserved rfl c.trunk
  rcases or_assoc.2 (or_assoc.2 st) with st | ⟨st, waits⟩
  · have made : s.session.state = .running ∨ s.session.state = .paused ∨ s.session.state = .settling := or_assoc.1 st
    have notStopping : s.session.state ≠ .stopping := by
      rcases made with st | st | st <;> rw [st] <;> decide
    have none : (claimedSend s w a).endAtJoining c.trunk = none :=
      endAtJoining_none _ _ (fun k => notStopping k.1) off
    have joins := joinRepeat_running none made w.index period
    refine ⟨?_, fun k => absurd k notStopping, fun _ room => ?_, fun full => ?_⟩
    · obtain ⟨r, mem, index, copy, p, count, overruns, next, asked, round⟩ :
          StandsNew ((claimedSend s w a).joinRepeat w.index c period) w.index c period s.now
            (fun k => k = .inRound ∨ k = .due s.now) := by
        rw [joins]
        by_cases room : (claimedSend s w a).placesTaken c.trunk < 16
        · exact (firstRoundDue_joins (s := claimedSend s w a) off made room w.index period).1
        · rw [joinRound_full (s := firstRoundDue (claimedSend s w a) w.index c period) (Nat.le_of_not_lt room)]
          exact ⟨_, mem_replacedNew _, rfl, rfl, rfl, rfl, rfl, rfl, rfl, .inr rfl⟩
      exact ⟨r, mem, index, copy, p, count, overruns, next, asked, fun _ => round, fun k => absurd k notStopping⟩
    · obtain ⟨_, length, own, selected, engine⟩ :=
        firstRoundDue_joins (s := claimedSend s w a) off made (places.trans_lt room) w.index period
      rw [← joins] at length own selected engine
      refine ⟨length, fun alone => ?_, selected, engine⟩
      obtain ⟨y, mem, index, copy, round, seq, _, _, _, _, _, moment, _, condition⟩ := own alone
      exact ⟨y, mem, index, copy, round, seq, moment, condition⟩
    · rw [joins, joinRound_full (s := firstRoundDue (claimedSend s w a) w.index c period) (full.trans_eq places.symm)]
      exact ⟨rfl, rfl⟩
  · have none : (claimedSend s w a).endAtJoining c.trunk = none :=
      endAtJoining_none _ _ (fun k => Bool.false_ne_true (waits.symm.trans k.2)) off
    rw [joinRepeat_stopping none st w.index period]
    refine ⟨?_, fun _ => rfl, fun k => absurd st k, fun _ => ⟨rfl, rfl⟩⟩
    exact ⟨_, mem_replacedNew _, rfl, rfl, rfl, rfl, rfl, rfl, rfl, fun k => absurd st k, fun _ => rfl⟩

end Sys2Proof.Proofs

/-! SUPPORT. The step without commands (O2; log 2, log 3, log 4). -/

namespace Sys2Proof.Proofs

open Sys2Proof.Machine Sys2Proof.Laws Sys2Proof.Safety

/-! ### What the block does while no command waits (log 2) -/

theorem step_reached {s : State} {c : Instr} (idle : s.pending = []) (event : s.reachedEvent = some c) :
    step s = exec c s := by
  unfold step
  rw [idle]
  dsimp only
  unfold State.idleStep
  rw [event]

/-- What the block does while nothing has been reached on a line: an input that comes now, a due event, or a microsecond. -/
theorem step_unreached {s : State} (idle : s.pending = []) (unreached : s.reachedEvent = none) :
    (∀ x r, s.outsideNow = some (x, r) → step s = .next (r.takeOutside x))
      ∧ (s.outsideNow = none →
          (∀ c, s.dueEvent = some c → step s = exec c s) ∧ (s.dueEvent = none → step s = .next s.tick)) := by
  unfold step
  rw [idle]
  dsimp only
  unfold State.idleStep
  rw [unreached]
  refine ⟨fun x r now => ?_, fun waits => ⟨fun c event => ?_, fun event => ?_⟩⟩
  · rw [now]
  · rw [waits, event]
  · rw [waits, event]

theorem outsideNow_none {s : State} (waits : ∀ w : Nat × Outside, s.outside.head? = some w → w.1 ≠ 0) :
    s.outsideNow = none := by
  unfold State.outsideNow
  cases h : s.outside with
  | nil => rfl
  | cons w rest =>
    obtain ⟨wait, x⟩ := w
    cases wait with
    | zero => exact absurd rfl (waits (0, x) (by rw [h]; rfl))
    | succ n => rfl

/-! ### The conditions of the moments (R5, R25, R43, R44, R46, R93, R95, R109) -/

theorem atRest_iff (x : EngineState) : x.atRest = true ↔ x = .idle ∨ x = .holding := by
  cases x <;> simp [EngineState.atRest]

theorem leadMark_moment (e : Engine) : e.leadMarkDue = true ↔
    (e.state = .idle ∨ e.state = .holding) ∧ e.level = .low ∧ e.candidate = true ∧ 60 * e.timing.unit ≤ e.lowTime := by
  unfold Engine.leadMarkDue
  rw [halves_eq]
  simp [atRest_iff, and_assoc]

theorem stuck_moment (e : Engine) : e.stuckDue = true ↔
    (e.state = .idle ∨ e.state = .holding) ∧ e.level = .low ∧ 400 * e.timing.unit ≤ e.lowTime := by
  unfold Engine.stuckDue
  rw [halves_eq]
  simp [atRest_iff, and_assoc]

theorem recovery_moment (e : Engine) : e.recoveryDue = true ↔
    e.state = .stuck ∧ e.level = .high ∧ 200 * e.timing.unit ≤ e.recoveryTime := by
  unfold Engine.recoveryDue
  rw [halves_eq]
  simp [and_assoc]

theorem off_moment (e : Engine) : e.offDue = true ↔
    e.pendingOff = true ∧ ((e.state = .idle ∨ e.state = .holding) ∨ e.state = .stuck) ∧ e.attempt = none := by
  rw [offDue_iff, or_assoc]

theorem hold_moment (s : State) (o : Trunk) : s.holdDue o = true ↔
    s.session.state = .running ∧ (s.engine o).state = .holding ∧ (s.engine o).mode = .active
      ∧ (s.engine o).pendingOff = false
      ∧ ∃ m, (s.engine o).armed = some m ∧ m.holdUnits * (10 * (s.engine o).timing.unit) ≤ (s.engine o).holdClock := by
  rw [holdDue_iff, holdReached_iff]

theorem schedulerLive_iff (s : State) :
    s.schedulerLive = true ↔ s.session.state ≠ .unset ∧ s.session.state ≠ .faulted := by
  unfold State.schedulerLive
  cases s.session.state <;> simp

theorem rest_moment (s : State) (x : Entry) : s.restDue x = true ↔
    (s.session.state ≠ .unset ∧ s.session.state ≠ .faulted)
      ∧ ∃ ms began, x.condition = .resting ms began ∧ ms ≤ (s.session.deviceTime - began).toNat := by
  rw [← schedulerLive_iff]
  show _ ↔ s.schedulerLive = true ∧ ∃ ms began, x.condition = .resting ms began ∧ ms ≤ s.elapsed began
  unfold State.restDue
  cases x.condition <;> simp

theorem expiry_moment (s : State) (x : Entry) : s.expiryDue x = true ↔
    (s.session.state ≠ .unset ∧ s.session.state ≠ .faulted) ∧ x.endMark = .none
      ∧ ∃ ms, x.copy.expiry = some ms ∧ ms ≤ (s.session.deviceTime - x.joined).toNat := by
  rw [← schedulerLive_iff]
  show _ ↔ s.schedulerLive = true ∧ x.endMark = .none ∧ ∃ ms, x.copy.expiry = some ms ∧ ms ≤ s.elapsed x.joined
  unfold State.expiryDue
  cases x.copy.expiry <;> simp [and_assoc]

theorem dueTime_moment (s : State) (r : RepeatEntry) : s.dueTimeDue r = true ↔
    (s.session.state ≠ .unset ∧ s.session.state ≠ .faulted)
      ∧ (s.session.deviceTime - r.nextDue).toNat < 2147483648 := by
  rw [← schedulerLive_iff]
  show _ ↔ s.schedulerLive = true ∧ s.elapsed r.nextDue < 2147483648
  unfold State.dueTimeDue State.reached
  simp

theorem window_moment (s : State) : s.windowSpent = true ↔ s.session.window = some 0 := by
  unfold State.windowSpent
  exact beq_iff_eq

theorem sweepTimer_moment (s : State) :
    (s.timerExpired && !(s.sweeper.sweep.isSome && s.sweeper.again)) = true ↔
      (s.session.state = .running ∨ s.session.state = .paused) ∧ s.session.resumeOwed = none
        ∧ s.sweeper.timerRuns = true ∧ s.sweeper.target ≤ s.sweeper.timer
        ∧ (s.sweeper.sweep = none ∨ s.sweeper.again = false) := by
  unfold State.timerExpired State.sweeping
  cases s.sweeper.sweep <;> simp [and_assoc]

theorem resume_moment (s : State) :
    s.resultsResumed = true ↔ s.session.state = .running ∧ s.session.resumeOwed = some 0 := by
  unfold State.resultsResumed
  simp

theorem timeout_moment (s : State) : s.timeoutDue = true ↔ ∃ u, s.port.unit = some u ∧ 1000 ≤ u.timer := by
  show _ ↔ ∃ u, s.port.unit = some u ∧ Config.accessTimeoutMicros ≤ u.timer
  unfold State.timeoutDue
  cases s.port.unit <;> simp

theorem abandoned_moment (s : State) : s.abandonedDue = true ↔ ∃ a, s.port.abandoned = some a ∧ 1000 ≤ a.timer := by
  show _ ↔ ∃ a, s.port.abandoned = some a ∧ Config.accessTimeoutMicros ≤ a.timer
  unfold State.abandonedDue
  cases s.port.abandoned <;> simp

/-! ### The event whose turn it is (log 3) -/

theorem firstDue_meets {l : List (Bool × Instr)} {P : Instr → Prop} (all : ∀ x ∈ l, x.1 = true → P x.2) {c : Instr}
    (h : firstDue l = some c) : P c := all _ (firstDue_some h) rfl

/-- What has come where a length reached on a line has the turn. -/
def ReachedWhen (s : State) : Instr → Prop
  | .leadMark t => (s.engine t).leadMarkDue = true
  | .stuck t => (s.engine t).stuckDue = true
  | .stuckRecovery t => (s.engine t).recoveryDue = true
  | _ => True

theorem reachedEvent_when {s : State} {c : Instr} (h : s.reachedEvent = some c) : ReachedWhen s c := by
  obtain ⟨t, ht⟩ := firstOfTrunks_some h
  refine firstDue_meets ?_ ht
  simp only [List.forall_mem_cons]
  exact ⟨id, id, id, nofun⟩

theorem reachedEvent_none {s : State} (h : s.reachedEvent = none) (t : Trunk) :
    (s.engine t).leadMarkDue = false ∧ (s.engine t).stuckDue = false ∧ (s.engine t).recoveryDue = false := by
  have rows := (firstDue_none _).1 ((firstOfTrunks_none _).1 h t)
  simpa using rows

/-- What has come where another event of the block's own has the turn. -/
def DueWhen (s : State) : Instr → Prop
  | .recognisedEdge t l => EdgeReached (s.engine t) ∧ l ≠ (s.engine t).level
  | .goodFrame t => EdgeReached (s.engine t)
  | .tailReached t => EdgeReached (s.engine t)
  | .lost t => EdgeReached (s.engine t)
  | .holdExpiry t => s.holdDue t = true
  | .timingTakesEffect t => (s.engine t).timingDue = true
  | .trunkOff t => (s.engine t).offDue = true
  | .restEnd i => ∃ t : Trunk, ∃ x ∈ s.list t, x.index = i ∧ s.restDue x = true
  | .expiry i => ∃ t : Trunk, ∃ x ∈ s.list t, x.index = i ∧ s.expiryDue x = true
  | .dueTime i => ∃ r ∈ s.sched.repeats, r.index = i ∧ s.dueTimeDue r = true
  | .windowClose => s.windowSpent = true
  | .sweepTimerExpiry => (s.timerExpired && !(s.sweeper.sweep.isSome && s.sweeper.again)) = true
  | .resumeResultsDone => s.resultsResumed = true
  | .accessTimeout => s.timeoutDue = true
  | .abandonedAccessEnd => s.abandonedDue = true
  | _ => True

theorem edgeEvent_when {s : State} {t : Trunk} {c : Instr} (h : s.edgeEvent t = some c) : DueWhen s c := by
  obtain ⟨reached, rfl⟩ := edgeEvent_some h
  have other : ∀ l : Level, otherLevel l ≠ l := by
    intro l
    cases l <;> decide
  cases (s.engine t).nextVerdict with
  | plain => exact ⟨reached, other _⟩
  | goodFrame | tailReached | lost => exact reached
  | shape | malformed => exact trivial

theorem engineEvent_when {s : State} {t : Trunk} {c : Instr} (h : s.engineEvent t = some c) : DueWhen s c := by
  refine firstDue_meets ?_ h
  simp only [List.forall_mem_cons]
  exact ⟨fun _ => trivial, fun _ => trivial, fun _ => trivial, fun _ => trivial, fun _ => trivial, fun _ => trivial,
    fun _ => trivial, fun _ => trivial, id, id, id, nofun⟩

theorem entryEvent_when {s : State} {t : Trunk} {c : Instr} (h : s.entryEvent t = some c) : DueWhen s c := by
  unfold State.entryEvent at h
  split at h
  · cases h
  · rename_i x found
    have mem := List.mem_of_find?_eq_some found
    have due := List.find?_some found
    split at h
    · rename_i rests
      cases h
      exact ⟨t, x, mem, rfl, rests⟩
    · rename_i rests
      cases h
      exact ⟨t, x, mem, rfl, (Bool.or_eq_true_iff.1 due).resolve_left rests⟩

theorem repeatEvent_when {s : State} {c : Instr} (h : s.repeatEvent = some c) : DueWhen s c := by
  obtain ⟨r, head, rfl⟩ := Option.map_eq_some_iff.1 h
  have mem := List.mem_of_head? head
  rw [mem_orderBy, List.mem_filter] at mem
  exact ⟨r, mem.1, rfl, mem.2⟩

theorem blockEvent_when {s : State} {c : Instr} (h : s.blockEvent = some c) : DueWhen s c := by
  refine firstDue_meets ?_ h
  simp only [List.forall_mem_cons]
  exact ⟨id, id, fun _ => trivial, fun _ => trivial, id, id, fun _ => trivial, nofun⟩

theorem dueEvent_when {s : State} {c : Instr} (h : s.dueEvent = some c) : DueWhen s c := by
  rcases dueEvent_some h with ⟨t, h⟩ | ⟨t, h⟩ | ⟨spent, rfl⟩ | ⟨t, h⟩ | h | ⟨t, h⟩ | h
  · exact edgeEvent_when h
  · exact engineEvent_when h
  · exact spent
  · unfold State.joinEvent at h
    split at h
    · cases h
      exact trivial
    · cases h
  · exact repeatEvent_when h
  · exact entryEvent_when h
  · exact blockEvent_when h

theorem engineEvent_none {s : State} {t : Trunk} (h : s.engineEvent t = none) :
    (s.engine t).timingDue = false ∧ (s.engine t).offDue = false ∧ s.holdDue t = false := by
  have rows := (firstDue_none _).1 h
  simp only [List.forall_mem_cons] at rows
  obtain ⟨_, _, _, _, _, _, _, _, timing, off, hold, _⟩ := rows
  exact ⟨timing, off, hold⟩

theorem entryEvent_none {s : State} {t : Trunk} (h : s.entryEvent t = none) {x : Entry} (mem : x ∈ s.list t) :
    s.restDue x = false ∧ s.expiryDue x = false := by
  unfold State.entryEvent at h
  split at h
  · rename_i absent
    exact Bool.or_eq_false_iff.1 (Bool.eq_false_iff.2 (List.find?_eq_none.1 absent x mem))
  · split at h <;> cases h

theorem repeatEvent_none {s : State} (h : s.repeatEvent = none) {r : RepeatEntry} (mem : r ∈ s.sched.repeats) :
    s.dueTimeDue r = false := by
  refine Bool.eq_false_iff.2 fun due => ?_
  have first : r ∈ orderBy s.dueTimeBefore (s.sched.repeats.filter s.dueTimeDue) :=
    (mem_orderBy _ _ _).2 (List.mem_filter.2 ⟨mem, due⟩)
  rw [List.head?_eq_none_iff.1 (Option.map_eq_none_iff.1 h)] at first
  cases first

theorem blockEvent_none {s : State} (h : s.blockEvent = none) :
    (s.timerExpired && !(s.sweeper.sweep.isSome && s.sweeper.again)) = false ∧ s.resultsResumed = false
      ∧ s.timeoutDue = false ∧ s.abandonedDue = false := by
  have rows := (firstDue_none _).1 h
  simp only [List.forall_mem_cons] at rows
  obtain ⟨timer, resumed, _, _, timeout, abandoned, _⟩ := rows
  exact ⟨timer, resumed, timeout, abandoned⟩

/-- A row whose condition is a test of the model that is false where no event has come. -/
theorem comesWhile_of {event : Option Instr} {row : Instr} {b : Bool} {condition : Prop} (moment : b = true ↔ condition)
    (when : event = some row → b = true) (never : event = none → b = false) : ComesWhile event row condition :=
  ⟨fun h => moment.1 (when h), fun h k => Bool.false_ne_true ((never h).symm.trans (moment.2 k))⟩

/-! ### One microsecond (log 4) -/

theorem tickTime_cases (s : State) :
    (s.session.timeRuns = false → s.tickTime = s)
    ∧ (s.session.timeRuns = true → s.session.micros ≠ 999 →
        s.tickTime = { s with session := { s.session with micros := s.session.micros + 1 } })
    ∧ (s.session.timeRuns = true → s.session.micros = 999 →
        s.tickTime = { s with
          session := { s.session with micros := 0, deviceTime := s.session.deviceTime + 1 }
          sweeper := { s.sweeper with timer := if s.sweeper.timerRuns then s.sweeper.timer + 1 else s.sweeper.timer } }) := by
  unfold State.tickTime
  refine ⟨fun stands => ?_, fun runs early => ?_, fun runs full => ?_⟩
  · rw [stands, if_neg Bool.false_ne_true]
  · rw [runs, if_pos rfl]
    exact if_neg (fun k => early (Nat.succ_injective k))
  · rw [runs, if_pos rfl]
    exact if_pos (congrArg (· + 1) full)

/-- The state one microsecond later, but for its device time. -/
def aroundTime (s : State) : State := s.tickEngines.tickWindow

theorem tick_session (s : State) :
    s.tick.session = (aroundTime s).tickTime.session ∧ s.tick.sweeper = (aroundTime s).tickTime.sweeper := by
  obtain ⟨o, outside⟩ := tickOutside_eq (aroundTime s).tickTime.tickPort
  show (State.tickOutside (aroundTime s).tickTime.tickPort).session = _ ∧ _
  constructor
  · rw [outside]
    rfl
  · show (State.tickOutside (aroundTime s).tickTime.tickPort).sweeper = _
    rw [outside]
    rfl

theorem tick_outside (s : State) : s.tick.outside = s.tickOutside.outside := by
  have before : (aroundTime s).tickTime.tickPort.outside = s.outside := by
    obtain ⟨d, m, k, time⟩ := tickTime_eq (aroundTime s)
    rw [time]
    rfl
  show (State.tickOutside (aroundTime s).tickTime.tickPort).outside = _
  unfold State.tickOutside
  rw [before]
  split
  · exact before
  · rfl

theorem pulse_tick (p : Pulse) : p.tick = aged p := by cases p <;> rfl

theorem engine_tick_off {e : Engine} (off : e.state = .off) :
    e.tick = { e with edgeTime := e.edgeTime + 1, rawTime := if e.wire = e.level then 0 else e.rawTime + 1 } := by
  unfold Engine.tick
  exact if_pos off

theorem engine_tick_on {e : Engine} (on : e.state ≠ .off) :
    e.tick =
      { e with
        edgeTime := e.edgeTime + 1, rawTime := if e.wire = e.level then 0 else e.rawTime + 1
        holdClock := if (e.state = .idle ∨ e.state = .holding) ∧ e.level = .high then e.holdClock + 1 else 0
        lowTime := if e.level = .low then e.lowTime + 1 else 0
        recoveryTime := if e.state = .stuck ∧ e.level = .high then e.recoveryTime + 1 else 0
        pulse := aged e.pulse, window := e.window.map (fun w => w + 1) } := by
  unfold Engine.tick
  rw [← pulse_tick]
  simp only [← atRest_iff]
  exact if_neg on

theorem wire_eq (e : Engine) : e.wire = if e.drives = true ∨ e.stationsLow = true then Level.low else Level.high := by
  unfold Engine.wire
  simp only [Bool.or_eq_true]

/-- A microsecond of the engine of a trunk (R3, R25, R27, R42, R44). -/
theorem tick_engine (s : State) (o : Trunk) : s.tick.engine o = (s.engine o).tick := by
  obtain ⟨_, _, _, _, tick⟩ := tick_eq s
  rw [tick]
  exact get_of _ o

/-! ### The obligation -/

theorem steps_of_pending_nil {s : State} (idle : s.pending = []) :
    (∀ c : Instr, s.reachedEvent = some c → step s = exec c s)
    ∧ (s.reachedEvent = none →
        (∀ (x : Outside) (rest : List (Nat × Outside)), s.outside = (0, x) :: rest →
          step s = .next ({ s with outside := rest }.takeOutside x))
        ∧ ((∀ (w : Nat × Outside), s.outside.head? = some w → w.1 ≠ 0) →
            (∀ c : Instr, s.dueEvent = some c → step s = exec c s) ∧ (s.dueEvent = none → step s = .next s.tick))) := by
  refine ⟨fun c event => step_reached idle event, fun unreached => ⟨fun x rest first => ?_, fun waits => ?_⟩⟩
  · have now : s.outsideNow = some (x, s.setOutside rest) := by
      unfold State.outsideNow
      rw [first]
    exact (step_unreached idle unreached).1 x _ now
  · exact (step_unreached idle unreached).2 (outsideNow_none waits)

theorem tick_times (s : State) :
    let window := s.session.window.map (fun w => w - 1)
    (s.session.timeRuns = false →
      s.tick.session = { s.session with window := window } ∧ s.tick.sweeper = s.sweeper)
    ∧ (s.session.timeRuns = true → s.session.micros ≠ 999 →
        s.tick.session = { s.session with window := window, micros := s.session.micros + 1 }
          ∧ s.tick.sweeper = s.sweeper)
    ∧ (s.session.timeRuns = true → s.session.micros = 999 →
        s.tick.session = { s.session with window := window, micros := 0, deviceTime := s.session.deviceTime + 1 }
        ∧ (s.sweeper.timerRuns = true → s.tick.sweeper = { s.sweeper with timer := s.sweeper.timer + 1 })
        ∧ (s.sweeper.timerRuns = false → s.tick.sweeper = s.sweeper)) := by
  obtain ⟨session, sweeper⟩ := tick_session s
  obtain ⟨stands, early, full⟩ := tickTime_cases (aroundTime s)
  rw [session, sweeper]
  refine ⟨fun runs => ?_, fun runs micros => ?_, fun runs micros => ?_⟩
  · rw [stands runs]
    exact ⟨rfl, rfl⟩
  · rw [early runs micros]
    exact ⟨rfl, rfl⟩
  · rw [full runs micros]
    refine ⟨rfl, fun timer => ?_, fun timer => ?_⟩
    · show ({ s.sweeper with timer := if s.sweeper.timerRuns then _ else _ } : Sweeper) = _
      rw [if_pos timer]
      rfl
    · show ({ s.sweeper with timer := if s.sweeper.timerRuns then _ else _ } : Sweeper) = _
      rw [if_neg (by rw [timer]; exact Bool.false_ne_true)]
      rfl

theorem tick_engines (s : State) (o : Trunk) :
    let e := s.engine o
    let onWire : Level := if e.drives = true ∨ e.stationsLow = true then .low else .high
    let filtered := { e with edgeTime := e.edgeTime + 1, rawTime := if onWire = e.level then 0 else e.rawTime + 1 }
    (e.state = .off → s.tick.engine o = filtered)
    ∧ (e.state ≠ .off →
        s.tick.engine o =
          { filtered with
            holdClock := if (e.state = .idle ∨ e.state = .holding) ∧ e.level = .high then e.holdClock + 1 else 0
            lowTime := if e.level = .low then e.lowTime + 1 else 0
            recoveryTime := if e.state = .stuck ∧ e.level = .high then e.recoveryTime + 1 else 0
            pulse := aged e.pulse, window := e.window.map (fun w => w + 1) }) := by
  intro e onWire filtered
  have wire : e.wire = onWire := wire_eq e
  rw [tick_engine]
  refine ⟨fun off => ?_, fun on => ?_⟩
  · rw [engine_tick_off off, wire]
  · rw [engine_tick_on on, wire]

/-- The lengths that a line's level reaches on a trunk (R5, R43, R44). -/
theorem reached_moments (s : State) (o : Trunk) :
    let e := s.engine o
    let atRest := e.state = .idle ∨ e.state = .holding
    ComesWhile s.reachedEvent (.leadMark o)
        (atRest ∧ e.level = .low ∧ e.candidate = true ∧ 60 * e.timing.unit ≤ e.lowTime)
      ∧ ComesWhile s.reachedEvent (.stuck o) (atRest ∧ e.level = .low ∧ 400 * e.timing.unit ≤ e.lowTime)
      ∧ ComesWhile s.reachedEvent (.stuckRecovery o)
          (e.state = .stuck ∧ e.level = .high ∧ 200 * e.timing.unit ≤ e.recoveryTime) := by
  refine ⟨comesWhile_of (leadMark_moment _) reachedEvent_when fun h => ?_,
    comesWhile_of (stuck_moment _) reachedEvent_when fun h => ?_,
    comesWhile_of (recovery_moment _) reachedEvent_when fun h => ?_⟩
  · exact (reachedEvent_none h o).1
  · exact (reachedEvent_none h o).2.1
  · exact (reachedEvent_none h o).2.2

/-- Where edges are recognised, the lowest of their trunks has the turn, with a row of its edge (log 3). -/
theorem dueEvent_edge {s : State} {o : Trunk} (reached : EdgeReached (s.engine o))
    (lowest : ∀ p : Trunk, p.val < o.val → ¬ EdgeReached (s.engine p)) : ∃ c, s.dueEvent = some c ∧ EdgeRow o c := by
  have event : s.edgeEvent o = some (edgeRow o (otherLevel (s.engine o).level) (s.engine o).nextVerdict) :=
    if_pos ((edgeDue_iff _).2 reached)
  refine ⟨_, ?_, edgeRow_edge o (otherLevel (s.engine o).level) (s.engine o).nextVerdict⟩
  unfold State.dueEvent
  rw [firstOfTrunks_lowest event fun p hp => (edgeEvent_none s p).2 (lowest p hp)]
  rfl

/-- The other moments of a trunk's engine (R3, R25, R46, R47). -/
theorem engine_moments (s : State) (o : Trunk) :
    let e := s.engine o
    let atRest := e.state = .idle ∨ e.state = .holding
    (∀ l, ComesWhile s.dueEvent (.recognisedEdge o l) (EdgeReached e) ∧ s.dueEvent ≠ some (.recognisedEdge o e.level))
      ∧ ComesWhile s.dueEvent (.goodFrame o) (EdgeReached e)
      ∧ ComesWhile s.dueEvent (.tailReached o) (EdgeReached e)
      ∧ ComesWhile s.dueEvent (.lost o) (EdgeReached e)
      ∧ ComesWhile s.dueEvent (.holdExpiry o)
          (s.session.state = .running ∧ e.state = .holding ∧ e.mode = .active ∧ e.pendingOff = false
            ∧ ∃ m, e.armed = some m ∧ m.holdUnits * (10 * e.timing.unit) ≤ e.holdClock)
      ∧ ComesWhile s.dueEvent (.timingTakesEffect o)
          (e.pendingTiming ≠ none ∧ atRest ∧ e.level = .high ∧ e.attempt = none)
      ∧ ComesWhile s.dueEvent (.trunkOff o) (e.pendingOff = true ∧ (atRest ∨ e.state = .stuck) ∧ e.attempt = none) := by
  have noEdge : s.dueEvent = none → ¬ EdgeReached (s.engine o) :=
    fun h => (edgeEvent_none s o).1 (((dueEvent_none s).1 h).1 o)
  have engine : s.dueEvent = none → s.engineEvent o = none := fun h => ((dueEvent_none s).1 h).2.1 o
  refine ⟨fun l => ⟨⟨fun h => (dueEvent_when h).1, noEdge⟩, fun h => (dueEvent_when h).2 rfl⟩,
    ⟨fun h => dueEvent_when h, noEdge⟩, ⟨fun h => dueEvent_when h, noEdge⟩, ⟨fun h => dueEvent_when h, noEdge⟩,
    comesWhile_of (hold_moment s o) dueEvent_when fun h => ?_,
    comesWhile_of (timingDue_iff _) dueEvent_when fun h => ?_,
    comesWhile_of (off_moment _) dueEvent_when fun h => ?_⟩
  · exact (engineEvent_none (engine h)).2.2
  · exact (engineEvent_none (engine h)).1
  · exact (engineEvent_none (engine h)).2.1

/-- The moments of entries and of the repeat table (R93, R95, R109). -/
theorem entry_moments (s : State) (i : Nat) :
    let live := s.session.state ≠ .unset ∧ s.session.state ≠ .faulted
    let since := fun w : Word => (s.session.deviceTime - w).toNat
    ComesWhile s.dueEvent (.restEnd i)
        (live ∧ ∃ o : Trunk, ∃ x ∈ s.list o, x.index = i ∧ ∃ ms began, x.condition = .resting ms began ∧ ms ≤ since began)
      ∧ ComesWhile s.dueEvent (.expiry i)
        (live ∧ ∃ o : Trunk, ∃ x ∈ s.list o, x.index = i ∧ x.endMark = .none
          ∧ ∃ ms, x.copy.expiry = some ms ∧ ms ≤ since x.joined)
      ∧ ComesWhile s.dueEvent (.dueTime i)
        (live ∧ ∃ r ∈ s.sched.repeats, r.index = i ∧ since r.nextDue < 2147483648) := by
  intro live since
  have parts := fun h : s.dueEvent = none => (dueEvent_none s).1 h
  refine ⟨⟨fun h => ?_, fun h k => ?_⟩, ⟨fun h => ?_, fun h k => ?_⟩, ⟨fun h => ?_, fun h k => ?_⟩⟩
  · obtain ⟨o, x, mem, index, due⟩ := dueEvent_when h
    obtain ⟨runs, rests⟩ := (rest_moment s x).1 due
    exact ⟨runs, o, x, mem, index, rests⟩
  · obtain ⟨_, _, _, _, _, entries, _⟩ := parts h
    obtain ⟨runs, o, x, mem, _, rests⟩ := k
    exact Bool.false_ne_true ((entryEvent_none (entries o) mem).1.symm.trans ((rest_moment s x).2 ⟨runs, rests⟩))
  · obtain ⟨o, x, mem, index, due⟩ := dueEvent_when h
    obtain ⟨runs, expires⟩ := (expiry_moment s x).1 due
    exact ⟨runs, o, x, mem, index, expires⟩
  · obtain ⟨_, _, _, _, _, entries, _⟩ := parts h
    obtain ⟨runs, o, x, mem, _, expires⟩ := k
    exact Bool.false_ne_true ((entryEvent_none (entries o) mem).2.symm.trans ((expiry_moment s x).2 ⟨runs, expires⟩))
  · obtain ⟨r, mem, index, due⟩ := dueEvent_when h
    obtain ⟨runs, reached⟩ := (dueTime_moment s r).1 due
    exact ⟨runs, r, mem, index, reached⟩
  · obtain ⟨_, _, _, _, repeats, _⟩ := parts h
    obtain ⟨runs, r, mem, _, reached⟩ := k
    exact Bool.false_ne_true ((repeatEvent_none repeats mem).symm.trans ((dueTime_moment s r).2 ⟨runs, reached⟩))

/-- The moments of the session controller, the sweeper and the port (R66, R166, R172, R178, R181). -/
theorem block_moments (s : State) :
    ComesWhile s.dueEvent .windowClose (s.session.window = some 0)
    ∧ ComesWhile s.dueEvent .sweepTimerExpiry
        ((s.session.state = .running ∨ s.session.state = .paused) ∧ s.session.resumeOwed = none
          ∧ s.sweeper.timerRuns = true ∧ s.sweeper.target ≤ s.sweeper.timer
          ∧ (s.sweeper.sweep = none ∨ s.sweeper.again = false))
    ∧ ComesWhile s.dueEvent .resumeResultsDone (s.session.state = .running ∧ s.session.resumeOwed = some 0)
    ∧ ComesWhile s.dueEvent .accessTimeout (∃ u, s.port.unit = some u ∧ 1000 ≤ u.timer)
    ∧ ComesWhile s.dueEvent .abandonedAccessEnd (∃ a, s.port.abandoned = some a ∧ 1000 ≤ a.timer) := by
  have block : s.dueEvent = none → s.blockEvent = none := by
    intro h
    obtain ⟨_, _, _, _, _, _, block⟩ := (dueEvent_none s).1 h
    exact block
  refine ⟨comesWhile_of (window_moment s) dueEvent_when fun h => ((dueEvent_none s).1 h).2.2.1,
    comesWhile_of (sweepTimer_moment s) dueEvent_when fun h => ?_,
    comesWhile_of (resume_moment s) dueEvent_when fun h => ?_,
    comesWhile_of (timeout_moment s) dueEvent_when fun h => ?_,
    comesWhile_of (abandoned_moment s) dueEvent_when fun h => ?_⟩
  · exact (blockEvent_none (block h)).1
  · exact (blockEvent_none (block h)).2.1
  · exact (blockEvent_none (block h)).2.2.1
  · exact (blockEvent_none (block h)).2.2.2

/-- Settles O2: the step without commands, the moments of the block's own, and one microsecond. -/
theorem stepWithoutCommands : Obligations.StepWithoutCommands := by
  refine ⟨fun s => steps_of_pending_nil, fun s => ?_, fun s => ?_⟩
  · refine ⟨fun o => ?_, entry_moments s, block_moments s⟩
    obtain ⟨lead, stuck, recovery⟩ := reached_moments s o
    exact ⟨lead, stuck, recovery, dueEvent_edge, engine_moments s o⟩
  · obtain ⟨d, m, k, o, tick⟩ := tick_eq s
    obtain ⟨stands, early, full⟩ := tick_times s
    refine ⟨stands, early, full, ?_, ?_, ?_, tick_engines s, ?_⟩
    · rw [tick]
    · intro none
      rw [tick_outside, State.tickOutside, none]
      exact none
    · intro w x rest some
      rw [tick_outside, State.tickOutside, some]
      rfl
    · rw [tick]
      exact ⟨rfl, rfl, rfl, rfl, rfl, rfl, rfl, rfl, rfl⟩

end Sys2Proof.Proofs

/-! SUPPORT. Trunks whose entries and repetitions end in turn, at STOP, RESUME and RELOAD (R102, R104, R116, R117). -/

namespace Sys2Proof.Proofs

open Sys2Proof.Machine Sys2Proof.Laws Sys2Proof.Safety

/-! ### The repetitions that a list leaves -/

theorem leftOver_unique {table : List RepeatEntry} {t : Trunk} {l : List Entry} {a b : List RepeatEntry}
    (ha : LeftOver table t l a) (hb : LeftOver table t l b) : a = b := by
  obtain ⟨orderA, memA⟩ := ha
  obtain ⟨orderB, memB⟩ := hb
  have distinct : ∀ {c : List RepeatEntry}, c.Pairwise (fun x y => x.index < y.index) → c.Nodup :=
    fun order => order.imp fun h eq => Nat.ne_of_lt h (congrArg RepeatEntry.index eq)
  have perm : a.Perm b :=
    (List.perm_ext_iff_of_nodup (distinct orderA) (distinct orderB)).2 fun r => (memA r).trans (memB r).symm
  exact perm.eq_of_pairwise (fun x y _ _ h k => absurd h (Nat.lt_asymm k)) orderA orderB

/-- The repetitions of a trunk that a list's rounds leave. -/
def leftOf (table : List RepeatEntry) (t : Trunk) (l : List Entry) : List RepeatEntry :=
  orderBy (fun (x y : RepeatEntry) => decide (x.index < y.index))
    (table.filter (fun r => r.copy.trunk == t && !roundIn l r))

theorem leftOver_leftOf {table : List RepeatEntry} (distinct : (table.map RepeatEntry.index).Nodup) (t : Trunk)
    (l : List Entry) : LeftOver table t l (leftOf table t l) := by
  refine ⟨orderBy_ascending _ (distinct.sublist (List.filter_sublist.map _)), fun r => ?_⟩
  unfold leftOf
  rw [mem_orderBy, List.mem_filter, Bool.and_eq_true, beq_iff_eq, Bool.not_eq_true']

/-! ### Tables and lists that agree -/

/-- Each index stands once in a list and once in the table, and each round stands for a repetition of its trunk. -/
def TablesAgree (s : State) : Prop :=
  (∀ o : Trunk, DistinctOn s o)
    ∧ ∀ o : Trunk, ∀ x ∈ s.list o, x.round = true → ∃ r ∈ s.sched.repeats, r.index = x.index ∧ r.copy.trunk = o

theorem tablesAgree_of_heldMapKept {s : State} (h : HeldMapKept s) : TablesAgree s := by
  refine ⟨distinctOn_of_heldMapKept h, fun o x mem round => ?_⟩
  obtain ⟨_, rounds, _⟩ := h
  obtain ⟨r, table, index, trunk, _⟩ := (rounds o).2 x mem round
  exact ⟨r, table, index, trunk⟩

theorem find_repeat_of_mem {table : List RepeatEntry} (distinct : (table.map RepeatEntry.index).Nodup) {r : RepeatEntry}
    (mem : r ∈ table) : table.find? (fun x => x.index == r.index) = some r := by
  cases found : table.find? (fun x => x.index == r.index) with
  | none => exact absurd (beq_self_eq_true r.index) (List.find?_eq_none.1 found r mem)
  | some x =>
    have index : x.index = r.index := beq_iff_eq.1 (List.find?_some (p := fun y : RepeatEntry => y.index == r.index) found)
    rw [List.inj_on_of_nodup_map distinct (List.mem_of_find?_eq_some found) mem index]

/-- The round of a trunk's list is of a repetition of that trunk. -/
theorem trunk_of_roundIn {s : State} (agree : TablesAgree s) {o : Trunk} {r : RepeatEntry} (mem : r ∈ s.sched.repeats)
    (round : roundIn (s.list o) r = true) : r.copy.trunk = o := by
  obtain ⟨x, hx, h⟩ := List.any_eq_true.1 round
  obtain ⟨isRound, index⟩ := Bool.and_eq_true_iff.1 h
  obtain ⟨k, hk, kindex, trunk⟩ := agree.2 o x hx isRound
  have same : k = r :=
    List.inj_on_of_nodup_map (agree.1 o).2 hk mem (kindex.trans (beq_iff_eq.1 index))
  exact same ▸ trunk

/-! ### Trunks that end, one after the other -/

/-- From `r` to `v` the entries and repetitions of a trunk have ended with an uncounted outcome at a moment. -/
def TrunkEnded (code : ResultCode) (now : Word) (r v : State) (t : Trunk) : Prop :=
  ∃ left : List RepeatEntry, LeftOver r.sched.repeats t (r.list t) left
    ∧ v.results =
        { r.results with queue := r.results.queue ++ trunkEnds r.sched.repeats (r.list t) left code now }
    ∧ v.sched.repeats = tableAfter r.sched.repeats t (r.list t)

/-- What the ends of the trunks of `done` that `p` picks have made of the queue and the table of `s`. -/
def EndedOn (p : Trunk → Bool) (code : ResultCode) (s r : State) (done : List Trunk) : Prop :=
  r.results =
      { s.results with
        queue := s.results.queue
          ++ done.flatMap (fun o =>
            if p o = true then
              trunkEnds s.sched.repeats (s.list o) (leftOf s.sched.repeats o (s.list o)) code s.session.deviceTime
            else []) }
    ∧ r.sched.repeats = s.sched.repeats.filter (fun x => !(p x.copy.trunk && done.contains x.copy.trunk))

theorem endedOn_nil (p : Trunk → Bool) (code : ResultCode) (s : State) : EndedOn p code s s [] := by
  refine ⟨?_, ?_⟩
  · rw [List.flatMap_nil, List.append_nil]
  · exact (List.filter_eq_self.2 fun x _ => by simp).symm

/-- What a trunk's end hands on, and the repetitions it leaves, are those of its own repetitions: it does not matter that
others are gone. -/
theorem trunkEnds_filter {s : State} (agree : TablesAgree s) {t : Trunk} {q : RepeatEntry → Bool}
    (own : ∀ r, r.copy.trunk = t → q r = true) (left : List RepeatEntry) (code : ResultCode) (now : Word) :
    trunkEnds (s.sched.repeats.filter q) (s.list t) left code now = trunkEnds s.sched.repeats (s.list t) left code now := by
  unfold trunkEnds
  refine congrArg (· ++ _) (List.flatMap_congr fun x hx => uncountedDone_congr _ _ _ _ x fun round => ?_)
  obtain ⟨r, mem, index, trunk⟩ := agree.2 t x hx round
  have distinct := (agree.1 t).2
  rw [← index, find_repeat_of_mem distinct mem]
  exact find_repeat_of_mem (distinct.sublist (List.filter_sublist.map _)) (List.mem_filter.2 ⟨mem, own r trunk⟩)

theorem leftOver_filter {table left : List RepeatEntry} {t : Trunk} {l : List Entry} {q : RepeatEntry → Bool}
    (own : ∀ r, r.copy.trunk = t → q r = true) (h : LeftOver (table.filter q) t l left) : LeftOver table t l left := by
  refine ⟨h.1, fun r => ?_⟩
  rw [h.2 r, List.mem_filter]
  exact ⟨fun ⟨⟨mem, _⟩, trunk, free⟩ => ⟨mem, trunk, free⟩,
    fun ⟨mem, trunk, free⟩ => ⟨⟨mem, own r trunk⟩, trunk, free⟩⟩

theorem tableAfter_filter {s : State} (agree : TablesAgree s) (t : Trunk) (q : RepeatEntry → Bool) :
    tableAfter (s.sched.repeats.filter q) t (s.list t) = s.sched.repeats.filter (fun r => q r && r.copy.trunk != t) := by
  unfold tableAfter
  rw [List.filter_filter]
  refine List.filter_congr fun r mem => ?_
  cases round : roundIn (s.list t) r with
  | false => rw [Bool.not_false, Bool.and_true, Bool.and_comm]
  | true => simp [trunk_of_roundIn agree mem round]

/-- One more trunk's turn. -/
theorem endedOn_turn {p : Trunk → Bool} {code : ResultCode} {s r v : State} {done : List Trunk} {t : Trunk}
    (agree : TablesAgree s) (before : EndedOn p code s r done) (new : t ∉ done) (list : r.list t = s.list t)
    (acts : p t = true → DistinctOn r t → TrunkEnded code s.session.deviceTime r v t)
    (stays : p t = false → v.results = r.results ∧ v.sched.repeats = r.sched.repeats) :
    EndedOn p code s v (done ++ [t]) := by
  obtain ⟨results, repeats⟩ := before
  unfold EndedOn
  rw [List.flatMap_append, List.flatMap_singleton]
  cases picked : p t with
  | false =>
    obtain ⟨sameResults, sameRepeats⟩ := stays picked
    rw [sameResults, sameRepeats, results, repeats, if_neg Bool.false_ne_true, List.append_nil]
    refine ⟨rfl, List.filter_congr fun x _ => ?_⟩
    by_cases own : x.copy.trunk = t
    · rw [own, picked, Bool.false_and, Bool.false_and]
    · simp [own]
  | true =>
    have ownKept : ∀ x : RepeatEntry, x.copy.trunk = t →
        (!(p x.copy.trunk && done.contains x.copy.trunk)) = true := by
      intro x own
      rw [own]
      simp [new]
    have distinct : DistinctOn r t := by
      refine ⟨list ▸ (agree.1 t).1, ?_⟩
      rw [repeats]
      exact (agree.1 t).2.sublist (List.filter_sublist.map _)
    obtain ⟨left, leftOver, ended, after⟩ := acts picked distinct
    rw [repeats, list] at leftOver ended after
    obtain rfl := leftOver_unique (leftOver_filter ownKept leftOver) (leftOver_leftOf (agree.1 t).2 t (s.list t))
    rw [ended, after, results, trunkEnds_filter agree ownKept, tableAfter_filter agree, if_pos rfl, List.append_assoc]
    refine ⟨rfl, List.filter_congr fun x _ => ?_⟩
    by_cases own : x.copy.trunk = t
    · simp [own, picked]
    · simp [own]

/-- What is made for each trunk in turn: where `p` picks the trunk its entries and repetitions end, else nothing ends. `J`
says what stays so of a trunk until its turn. -/
theorem endedInTurn {f : State → Trunk → State} {p : Trunk → Bool} {code : ResultCode} {s : State}
    {J : Trunk → State → Prop} (agree : TablesAgree s) (start : ∀ o, J o s)
    (keeps : ∀ r o q, q ≠ o → J q r → J q (f r o)) (list : ∀ r o, J o r → r.list o = s.list o)
    (acts : ∀ r o, J o r → p o = true → DistinctOn r o → TrunkEnded code s.session.deviceTime r (f r o) o)
    (stays : ∀ r o, J o r → p o = false → (f r o).results = r.results ∧ (f r o).sched.repeats = r.sched.repeats) :
    (∀ o, LeftOver s.sched.repeats o (s.list o) (leftOf s.sched.repeats o (s.list o)))
      ∧ (inTurn f s).results =
          { s.results with
            queue := s.results.queue
              ++ [0, 1, 2, 3].flatMap (fun o : Trunk =>
                if p o = true then
                  trunkEnds s.sched.repeats (s.list o) (leftOf s.sched.repeats o (s.list o)) code s.session.deviceTime
                else []) }
      ∧ (inTurn f s).sched.repeats = s.sched.repeats.filter (fun x => !p x.copy.trunk) := by
  have turn : ∀ {r : State} {done : List Trunk} (t : Trunk), EndedOn p code s r done → t ∉ done → J t r →
      EndedOn p code s (f r t) (done ++ [t]) := by
    intro r done t before new j
    exact endedOn_turn agree before new (list r t j) (acts r t j) (stays r t j)
  have j1 := keeps s 0 1 (by decide) (start 1)
  have j2 := keeps _ 1 2 (by decide) (keeps s 0 2 (by decide) (start 2))
  have j3 := keeps _ 2 3 (by decide) (keeps _ 1 3 (by decide) (keeps s 0 3 (by decide) (start 3)))
  have h0 := turn 0 (endedOn_nil p code s) (by decide) (start 0)
  have h1 := turn 1 h0 (by decide) j1
  have h2 := turn 2 h1 (by decide) j2
  obtain ⟨results, repeats⟩ := turn 3 h2 (by decide) j3
  refine ⟨fun o => leftOver_leftOf (agree.1 o).2 o (s.list o), results, repeats.trans ?_⟩
  refine List.filter_congr fun x _ => ?_
  have all : ∀ o : Trunk, ([] ++ [0] ++ [1] ++ [2] ++ [3] : List Trunk).contains o = true := by decide
  rw [all, Bool.and_true]

end Sys2Proof.Proofs

/-! SUPPORT. What a RELOAD sets (O36; R47, R68, R101, R123, R134, R160, R166, R170). -/

namespace Sys2Proof.Proofs

open Sys2Proof.Machine Sys2Proof.Laws Sys2Proof.Safety

/-! ### One trunk takes its record (R101, R123, R134) -/

theorem withdraw_only (s : State) (t : Trunk) : SelectsOnly s (s.withdraw t) := by
  unfold State.withdraw
  split
  · rfl
  · rfl

theorem updateEngine_only (s : State) (t : Trunk) (f : Engine → Engine) : SelectsOnly s (s.updateEngine t f) := rfl

theorem withdraw_others (s : State) (t : Trunk) : OtherTrunksSame s (s.withdraw t) t := (sendsOn_withdraw s t).others

theorem updateEngine_others (s : State) (t : Trunk) (f : Engine → Engine) : OtherTrunksSame s (s.updateEngine t f) t :=
  fun o ne => ⟨engine_setEngine_other s t o _ ne, rfl⟩

theorem otherTrunksSame_trans {r s v : State} {t : Trunk} (h : OtherTrunksSame r s t) (k : OtherTrunksSame s v t) :
    OtherTrunksSame r v t :=
  fun o ne => ⟨(k o ne).1.trans (h o ne).1, (k o ne).2.trans (h o ne).2⟩

/-- The change of a mode is a matter of the trunk's engine and its list (R46). -/
theorem reloadMode_frame (s : State) (t : Trunk) (m : Mode) :
    SelectsOnly s (s.reloadMode t m) ∧ OtherTrunksSame s (s.reloadMode t m) t := by
  have withdrawn : ∀ f, SelectsOnly s ((s.withdraw t).updateEngine t f)
      ∧ OtherTrunksSame s ((s.withdraw t).updateEngine t f) t := fun f =>
    ⟨selectsOnly_trans _ _ _ (withdraw_only s t) (updateEngine_only _ t f),
      otherTrunksSame_trans (withdraw_others s t) (updateEngine_others _ t f)⟩
  have updated : ∀ f, SelectsOnly s (s.updateEngine t f) ∧ OtherTrunksSame s (s.updateEngine t f) t := fun f =>
    ⟨updateEngine_only s t f, updateEngine_others s t f⟩
  unfold State.reloadMode
  split
  · exact ⟨rfl, fun _ _ => ⟨rfl, rfl⟩⟩
  · exact updated _
  · exact updated _
  · exact withdrawn _
  · exact withdrawn _
  · exact updated _

/-- The trunk with its new timing and mode, before its tables are loaded. -/
def remoded (s : State) (t : Trunk) (r : TrunkRecord) : State :=
  (s.updateEngine t (fun e => e.reloadTiming r.timing)).reloadMode t r.mode

/-- The trunk with its record taken, before a selection. -/
def recordTaken (s : State) (t : Trunk) (r : TrunkRecord) : State :=
  ((remoded s t r).reloadListen t r.listen).reloadSched t r

theorem reloadTrunk_eq (s : State) (t : Trunk) (r : TrunkRecord) :
    s.reloadTrunk t r = if s.reloadSelects t r then (recordTaken s t r).select t else recordTaken s t r := rfl

/-- What a trunk's record sets besides the engine (R101, R123, R134). -/
def recordSet (s : State) (t : Trunk) (r : TrunkRecord) : State :=
  { s with
    sched :=
      { s.sched with
        windowMode := s.sched.windowMode.set t r.windowMode, backoff := s.sched.backoff.set t r.backoff }
    director :=
      { s.director with
        listen := s.director.listen.set t r.listen
        dups :=
          if (s.director.listen.get t).own = r.listen.own ∧ (s.director.listen.get t).groups = r.listen.groups then
            s.director.dups
          else s.director.dups.set t (Vector.replicate 63 none) } }

theorem remoded_frame (s : State) (t : Trunk) (r : TrunkRecord) :
    SelectsOnly s (remoded s t r) ∧ OtherTrunksSame s (remoded s t r) t := by
  obtain ⟨only, others⟩ := reloadMode_frame (s.updateEngine t (fun e => e.reloadTiming r.timing)) t r.mode
  exact ⟨selectsOnly_trans _ _ _ (updateEngine_only s t _) only,
    otherTrunksSame_trans (updateEngine_others s t _) others⟩

theorem recordTaken_only (s : State) (t : Trunk) (r : TrunkRecord) : SelectsOnly (recordSet s t r) (recordTaken s t r) := by
  have only := (remoded_frame s t r).1
  unfold SelectsOnly at only
  unfold SelectsOnly recordTaken
  generalize remoded s t r = v at only
  rw [only]
  rfl

/-- One trunk's reload sets what its record says, and works on its engine and its list. -/
theorem reloadTrunk_frame (s : State) (t : Trunk) (r : TrunkRecord) :
    SelectsOnly (recordSet s t r) (s.reloadTrunk t r) ∧ OtherTrunksSame s (s.reloadTrunk t r) t := by
  have only := recordTaken_only s t r
  have others : OtherTrunksSame s (recordTaken s t r) t := (remoded_frame s t r).2
  rw [reloadTrunk_eq]
  split
  · exact ⟨selectsOnly_trans _ _ _ only (select_eq _ t),
      otherTrunksSame_trans others (sendsOn_select _ t).others⟩
  · exact ⟨only, others⟩

/-! ### The four trunks (R160) -/

/-- What a RELOAD may change as it hands the settings over. -/
def SettingsOnly (s v : State) : Prop :=
  v = { s with
    engines := v.engines
    sched :=
      { s.sched with lists := v.sched.lists, windowMode := v.sched.windowMode, backoff := v.sched.backoff }
    director := { s.director with listen := v.director.listen, dups := v.director.dups } }

theorem settingsOnly_refl (s : State) : SettingsOnly s s := rfl

theorem settingsOnly_trans (r s v : State) (h : SettingsOnly r s) (k : SettingsOnly s v) : SettingsOnly r v := by
  unfold SettingsOnly at h k ⊢
  rw [h] at k
  exact k

theorem settingsOnly_reloadTrunk (s : State) (t : Trunk) (r : TrunkRecord) : SettingsOnly s (s.reloadTrunk t r) := by
  have only := (reloadTrunk_frame s t r).1
  unfold SelectsOnly at only
  unfold SettingsOnly
  generalize s.reloadTrunk t r = v at only
  rw [only]
  rfl

/-- What a RELOAD sets of a trunk. -/
structure TrunkView where
  engine : Engine
  list : List Entry
  windowMode : Bool
  backoff : Nat
  listen : Listen
  dups : Vector (Option Duplicate) 63

/-- What the model holds of a trunk's settings. -/
def trunkView (s : State) (o : Trunk) : TrunkView :=
  { engine := s.engine o, list := s.list o, windowMode := s.sched.windowMode.get o, backoff := s.sched.backoff.get o
    listen := s.director.listen.get o, dups := s.director.dups.get o }

theorem trunkView_reloadTrunk_other (s : State) (t : Trunk) (r : TrunkRecord) (o : Trunk) (ne : o ≠ t) :
    trunkView (s.reloadTrunk t r) o = trunkView s o := by
  obtain ⟨only, others⟩ := reloadTrunk_frame s t r
  obtain ⟨engine, list⟩ := others o ne
  unfold SelectsOnly at only
  unfold trunkView
  rw [engine, list]
  generalize s.reloadTrunk t r = v at only
  rw [only]
  unfold recordSet
  dsimp only
  rw [get_set_other _ _ _ _ ne, get_set_other _ _ _ _ ne, get_set_other _ _ _ _ ne]
  split
  · rfl
  · rw [get_set_other _ _ _ _ ne]

theorem handSettings_inTurn (s : State) (h : HeaderBytes) :
    s.handSettings (settings h) = inTurn (fun r o => r.reloadTrunk o (trunkRecord h o)) (settingsTaken s (settings h)) := by
  rw [handSettings_eq]
  rfl

/-- The settings handed over, for one trunk: its record is taken in a state that shows the trunk as it was. -/
theorem handSettings_trunk (s : State) (h : HeaderBytes) (o : Trunk) :
    ∃ r, SettingsOnly (settingsTaken s (settings h)) r ∧ trunkView r o = trunkView s o
      ∧ SettingsOnly (r.reloadTrunk o (trunkRecord h o)) (s.handSettings (settings h))
      ∧ trunkView (s.handSettings (settings h)) o = trunkView (r.reloadTrunk o (trunkRecord h o)) o := by
  rw [handSettings_inTurn]
  exact inTurn_view settingsOnly_refl settingsOnly_trans (fun s t => settingsOnly_reloadTrunk s t _)
    (fun s t o ne => trunkView_reloadTrunk_other s t _ o ne) (settingsTaken s (settings h)) o

theorem handSettings_only (s : State) (h : HeaderBytes) :
    SettingsOnly (settingsTaken s (settings h)) (s.handSettings (settings h)) := by
  obtain ⟨r, before, _, after, _⟩ := handSettings_trunk s h 0
  exact settingsOnly_trans _ _ _ before (settingsOnly_trans _ _ _ (settingsOnly_reloadTrunk r 0 _) after)

/-- What a trunk's tables hold once its record is taken (R101, R123, R134). -/
theorem reloadTrunk_tables (s : State) (t : Trunk) (r : TrunkRecord) :
    let v := trunkView (s.reloadTrunk t r) t
    v.windowMode = r.windowMode ∧ v.backoff = r.backoff ∧ v.listen = r.listen
      ∧ (r.listen.own = (s.director.listen.get t).own → r.listen.groups = (s.director.listen.get t).groups →
          v.dups = s.director.dups.get t)
      ∧ (r.listen.own ≠ (s.director.listen.get t).own ∨ r.listen.groups ≠ (s.director.listen.get t).groups →
          v.dups = Vector.replicate 63 none) := by
  have only := (reloadTrunk_frame s t r).1
  unfold SelectsOnly at only
  unfold trunkView
  generalize s.reloadTrunk t r = v at only
  rw [only]
  unfold recordSet
  dsimp only
  refine ⟨get_set_same _ _ _, get_set_same _ _ _, get_set_same _ _ _, fun own groups => ?_, fun differ => ?_⟩
  · rw [if_pos ⟨own.symm, groups.symm⟩]
  · rw [if_neg, get_set_same]
    rintro ⟨own, groups⟩
    rcases differ with h | h
    · exact h own.symm
    · exact h groups.symm

/-! ### The engines that go OFF at once (R46, R102) -/

/-- From `s` to `v` engines have gone OFF: their entries have ended, or are owed the end. -/
def OffsOnly (s v : State) : Prop :=
  SameElsewhereAndStandby s v ∧ v.regs = s.regs ∧ v.director = s.director
    ∧ v.sched =
        { s.sched with
          lists := v.sched.lists, repeats := v.sched.repeats, offDone := v.sched.offDone, offOwed := v.sched.offOwed }

theorem offsOnly_refl (s : State) : OffsOnly s s := ⟨keeps_refl s, rfl, rfl, rfl⟩

theorem offsOnly_trans (r s v : State) (h : OffsOnly r s) (k : OffsOnly s v) : OffsOnly r v := by
  obtain ⟨elsewhere, regs, director, sched⟩ := h
  obtain ⟨elsewhere', regs', director', sched'⟩ := k
  refine ⟨keeps_trans elsewhere elsewhere', regs'.trans regs, director'.trans director, ?_⟩
  rw [sched] at sched'
  exact sched'

theorem offsOnly_takeOffReport (s : State) (t : Trunk) : OffsOnly s (s.takeOffReport t) := by
  have sends := sendsOn_takeOffReport s t
  refine ⟨sends.elsewhere, sends.regs, sends.director, ?_⟩
  rcases takeOffReport_cases s t with ⟨_, h⟩ | ⟨_, _, h⟩ | ⟨_, _, h⟩
  · rw [h]
  · rw [h]
    rfl
  · rw [h]
    have sched := finishTrunk_sched (s.setOffDone t true) t .trunkOff s.now
    show ((s.setOffDone t true).finishTrunk t .trunkOff s.now).sched = _
    rw [State.trunkOffProcessing, sched]
    rfl

theorem offsOnly_offAtOnce (s : State) (t : Trunk) : OffsOnly s (s.offAtOnce t) := by
  unfold State.offAtOnce
  split
  · exact offsOnly_trans _ _ _ ⟨keeps_refl s, rfl, rfl, rfl⟩ (offsOnly_takeOffReport (s.updateEngine t Engine.enterOff) t)
  · exact offsOnly_refl s

theorem offsOnly_offsAtOnce (s : State) : OffsOnly s (offsAtOnce s) :=
  offsOnly_trans _ _ _ (offsOnly_trans _ _ _ (offsOnly_trans _ _ _ (offsOnly_offAtOnce s 0) (offsOnly_offAtOnce _ 1))
    (offsOnly_offAtOnce _ 2)) (offsOnly_offAtOnce _ 3)

/-! ### RELOAD completes -/

/-- The state in which the settings are handed over and RELOAD is done (R160). -/
def reloaded (s : State) (h : HeaderBytes) : State :=
  ((headerLeft s s.memory).handSettings (settings h)).finishCommand .reload

theorem exec_reload_passed {s : State} {u : HeaderUnit} {a : Access} {d : List Byte} (role : a.role = .reloadReads)
    (op : a.op = .read 6) (last : LastAccess s (.header u) a d)
    (good : firstBad (commonChecks { first := 8, bytes := d ++ Memory.readBytes s.memory a.addr 24 }) = none) :
    exec .reloadReadsDone s
      = .next (offsAtOnce (reloaded s { first := 8, bytes := d ++ Memory.readBytes s.memory a.addr 24 })) := by
  rw [exec_reloadReadsDone role op last, reloadRead_eq, reloadHeader, good]
  rfl

/-- What a RELOAD leaves alone as its settings are handed over. -/
theorem reloaded_rest (s : State) (h : HeaderBytes) :
    let v := reloaded s h
    v.session = { s.session with windowLength := h.half 10, inProgress := none } ∧ v.regs = doneRegs s 6#4
      ∧ v.sweeper = { s.sweeper with period := h.half 8 } ∧ v.standby.wake = s.standby.wake
      ∧ v.standby.wakeEnable = (settings h).each TrunkRecord.wakeEnable
      ∧ v.sched.toggles = s.sched.toggles ∧ v.sched.seq = s.sched.seq ∧ v.sched.repeats = s.sched.repeats
      ∧ v.results = s.results
      ∧ v.director.queue = s.director.queue ∧ v.director.receiveList = s.director.receiveList
      ∧ v.memory = s.memory ∧ v.header = s.header.tail ∧ v.port = { s.port with unit := none } := by
  have only := handSettings_only (headerLeft s s.memory) h
  unfold SettingsOnly at only
  unfold reloaded
  generalize (headerLeft s s.memory).handSettings (settings h) = v at only
  rw [only]
  exact ⟨rfl, rfl, rfl, rfl, rfl, rfl, rfl, rfl, rfl, rfl, rfl, rfl, rfl, rfl⟩

/-- Settles O36: every owner has its settings, and the rest stays. -/
theorem reloadCompletes : Obligations.ReloadCompletes := by
  intro s a d u role op last bs h good
  obtain ⟨session, regs, sweeper, wake, enable, toggles, seq, _, _, queue, receive, memory, header, port⟩ := reloaded_rest s h
  obtain ⟨⟨elsewhere, standby'⟩, regs', director', sched'⟩ := offsOnly_offsAtOnce (reloaded s h)
  obtain ⟨memory', session', port', sweeper', header', _⟩ := elsewhere
  refine ⟨_, exec_reload_passed role op last good, session'.trans session, regs'.trans regs, sweeper'.trans sweeper,
    (congrArg Standby.wake standby').trans wake, fun o => ?_, ?_, ?_, ?_, ?_, memory'.trans memory, header'.trans header,
    port'.trans port⟩
  · obtain ⟨r, _, before, _, after⟩ := handSettings_trunk (headerLeft s s.memory) h o
    have tables := reloadTrunk_tables r o (trunkRecord h o)
    rw [← after, show r.director.listen.get o = s.director.listen.get o from congrArg TrunkView.listen before,
      show r.director.dups.get o = s.director.dups.get o from congrArg TrunkView.dups before] at tables
    obtain ⟨windowMode, backoff, listen, same, differ⟩ := tables
    rw [sched', director', standby', enable]
    exact ⟨windowMode, backoff, listen, each_get h TrunkRecord.wakeEnable o, same, differ⟩
  · rw [sched']
    exact toggles
  · rw [sched']
    exact seq
  · rw [director', queue]
  · rw [director', receive]

end Sys2Proof.Proofs

/-! SUPPORT. What a RELOAD does to the engines (O37; R46, R47, R88, R102). -/

namespace Sys2Proof.Proofs

open Sys2Proof.Machine Sys2Proof.Laws Sys2Proof.Safety

/-! ### The timing of a record (R47) -/

/-- The engine with new timing values in force (R47). -/
def retimed (e : Engine) (v : Timing) : Engine :=
  { e with
    timing := v, pendingTiming := none, holdClock := 0
    armed := e.armed.map (fun m => { m with holdUnits := v.hold + 2 * m.cls.code + 4 * m.retry.toNat }) }

/-- R47 lets new timing values take effect at once. -/
def TakesTiming (e : Engine) : Prop := (e.state = .idle ∨ e.state = .holding) ∧ e.level = .high ∧ e.attempt = none

theorem reloadTiming_same {e : Engine} {v : Timing} (same : v = e.timing ∧ e.pendingTiming = none) :
    e.reloadTiming v = e := if_pos same

theorem reloadTiming_differs {e : Engine} {v : Timing} (differs : ¬ (v = e.timing ∧ e.pendingTiming = none)) :
    (TakesTiming e ∨ e.state = .off → e.reloadTiming v = retimed e v)
      ∧ (¬ TakesTiming e → e.state ≠ .off → e.reloadTiming v = { e with pendingTiming := some v }) := by
  have now : (({ e with pendingTiming := some v } : Engine).timingDue || e.state == .off) = true
      ↔ TakesTiming e ∨ e.state = .off := by
    rw [Bool.or_eq_true, timingDue_iff, beq_iff_eq]
    exact or_congr ⟨fun h => h.2, fun h => ⟨Option.some_ne_none v, h⟩⟩ Iff.rfl
  unfold Engine.reloadTiming
  rw [if_neg differs]
  refine ⟨fun h => ?_, fun not on => ?_⟩
  · exact (if_pos (now.2 h)).trans (takeTiming_some (e := { e with pendingTiming := some v }) rfl)
  · exact if_neg fun k => (now.1 k).elim not on

/-- A new timing changes nothing but the timing values, the hold clock and the armed entry's hold time. -/
theorem reloadTiming_rest (e : Engine) (v : Timing) :
    let g := e.reloadTiming v
    g = { e with timing := g.timing, pendingTiming := g.pendingTiming, holdClock := g.holdClock, armed := g.armed }
      ∧ g.armed.map Armed.index = e.armed.map Armed.index := by
  by_cases same : v = e.timing ∧ e.pendingTiming = none
  · rw [reloadTiming_same same]
    exact ⟨rfl, rfl⟩
  · obtain ⟨now, later⟩ := reloadTiming_differs same
    by_cases h : TakesTiming e ∨ e.state = .off
    · rw [now h]
      refine ⟨rfl, ?_⟩
      show (e.armed.map _).map _ = _
      rw [Option.map_map]
      rfl
    · rw [not_or] at h
      rw [later h.1 h.2]
      exact ⟨rfl, rfl⟩

theorem armed_none_reloadTiming (e : Engine) (v : Timing) : (e.reloadTiming v).armed = none ↔ e.armed = none := by
  have index := (reloadTiming_rest e v).2
  rw [← Option.map_eq_none_iff (f := Armed.index), index, Option.map_eq_none_iff]

/-! ### The mode of a record (R46) -/

/-- The engine with its armed entry withdrawn (R28). -/
def withdrawnEngine (e : Engine) : Engine :=
  { e with armed := none, state := if e.state = .holding ∧ e.armed ≠ none then .idle else e.state }

theorem withdraw_engine (s : State) (t : Trunk) : (s.withdraw t).engine t = withdrawnEngine (s.engine t) := by
  unfold withdrawnEngine
  cases armed : (s.engine t).armed with
  | none =>
    rw [withdraw_of_none armed, if_neg fun k => k.2 rfl, ← armed]
  | some a =>
    rw [withdraw_of_some armed, engine_setList, engine_setEngine_same, Engine.withdraw]
    simp only [ne_eq, reduceCtorEq, not_false_eq_true, and_true]

theorem sameReport_refl (x : Entry) : SameReport x x := ⟨rfl, rfl, rfl, rfl, rfl⟩

theorem sameReport_trans {x y z : Entry} (h : SameReport x y) (k : SameReport y z) : SameReport x z := by
  obtain ⟨index, round, last, attempts, losses⟩ := h
  obtain ⟨index', round', last', attempts', losses'⟩ := k
  exact ⟨index'.trans index, round'.trans round, last'.trans last, attempts'.trans attempts, losses'.trans losses⟩

/-- Two lists hold the same entries, but for what they do not report. -/
def SameReports (l m : List Entry) : Prop := ∃ f : Entry → Entry, m = l.map f ∧ ∀ x, SameReport x (f x)

theorem sameReports_refl (l : List Entry) : SameReports l l := ⟨id, (List.map_id _).symm, sameReport_refl⟩

theorem sameReports_trans {l m n : List Entry} (h : SameReports l m) (k : SameReports m n) : SameReports l n := by
  obtain ⟨f, rfl, hf⟩ := h
  obtain ⟨g, rfl, hg⟩ := k
  exact ⟨g ∘ f, List.map_map, fun x => sameReport_trans (hf x) (hg (f x))⟩

theorem sameReports_indices {l m : List Entry} (h : SameReports l m) : m.map Entry.index = l.map Entry.index := by
  obtain ⟨f, rfl, hf⟩ := h
  rw [List.map_map]
  exact List.map_congr_left fun x _ => (hf x).1

theorem sameReports_withdraw (s : State) (t : Trunk) : SameReports (s.list t) ((s.withdraw t).list t) := by
  cases armed : (s.engine t).armed with
  | none =>
    rw [withdraw_of_none armed]
    exact sameReports_refl _
  | some a =>
    rw [withdraw_of_some armed, list_setList_same]
    exact ⟨Entry.disarmed, rfl, fun x => sameReport_of_reconditioned (reconditioned_disarmed s t x)⟩

theorem sameReports_select (s : State) (t : Trunk) : SameReports (s.list t) ((s.select t).list t) := by
  obtain ⟨f, list, keeps⟩ := select_entries s t
  exact ⟨f, list, fun x => sameReport_of_reconditioned (keeps x)⟩

/-- The engine of a trunk with its new timing and mode, before a selection (R46, R47). -/
def remodedEngine (e : Engine) (r : TrunkRecord) : Engine :=
  let g := e.reloadTiming r.timing
  if e.mode = .off then
    if r.mode = .off then g else g.enterFromOff r.mode
  else
    match r.mode with
    | .off => { withdrawnEngine g with pendingOff := true }
    | .listen => { withdrawnEngine g with mode := .listen, pendingOff := false }
    | .active => { g with mode := .active, pendingOff := false }

theorem remoded_trunk (s : State) (t : Trunk) (r : TrunkRecord) :
    (remoded s t r).engine t = remodedEngine (s.engine t) r ∧ SameReports (s.list t) ((remoded s t r).list t) := by
  have timed : (s.updateEngine t (fun e => e.reloadTiming r.timing)).engine t = (s.engine t).reloadTiming r.timing :=
    engine_setEngine_same _ _ _
  have mode : ((s.engine t).reloadTiming r.timing).mode = (s.engine t).mode := (reloadTiming_mode _ _).1
  have reports : SameReports (s.list t) ((s.updateEngine t (fun e => e.reloadTiming r.timing)).list t) := sameReports_refl _
  unfold remoded remodedEngine
  rw [← mode, ← timed]
  generalize s.updateEngine t (fun e => e.reloadTiming r.timing) = u at reports
  have updated : ∀ f, (u.updateEngine t f).engine t = f (u.engine t) := fun f => engine_setEngine_same _ _ _
  have withdrawn : ∀ f, ((u.withdraw t).updateEngine t f).engine t = f (withdrawnEngine (u.engine t))
      ∧ SameReports (s.list t) (((u.withdraw t).updateEngine t f).list t) := fun f =>
    ⟨(engine_setEngine_same _ _ _).trans (congrArg f (withdraw_engine u t)),
      sameReports_trans reports (sameReports_withdraw u t)⟩
  unfold State.reloadMode
  cases old : (u.engine t).mode with
  | off =>
    cases r.mode with
    | off => exact ⟨rfl, reports⟩
    | listen => exact ⟨updated _, reports⟩
    | active => exact ⟨updated _, reports⟩
  | listen | active =>
    cases r.mode with
    | off => exact withdrawn _
    | listen => exact withdrawn _
    | active => exact ⟨updated _, reports⟩

/-! ### One trunk's reload (R46, R88) -/

theorem reloadSelects_iff (s : State) (t : Trunk) (r : TrunkRecord) : s.reloadSelects t r = true ↔
    (r.mode = .active ∧ (s.engine t).mode ≠ .active) ∨ (r.mode ≠ .off ∧ (s.engine t).pendingOff = true)
      ∨ r.windowMode ≠ s.sched.windowMode.get t := by
  unfold State.reloadSelects
  simp [or_assoc]

theorem recordTaken_trunk (s : State) (t : Trunk) (r : TrunkRecord) :
    (recordTaken s t r).engine t = remodedEngine (s.engine t) r
      ∧ SameReports (s.list t) ((recordTaken s t r).list t) := remoded_trunk s t r

/-- Where no selection is called for, or the engine takes no arming, the engine is that of its record. -/
theorem reloadTrunk_unselected {s : State} {t : Trunk} {r : TrunkRecord}
    (h : (remodedEngine (s.engine t) r).takesArming = false ∨ s.reloadSelects t r = false) :
    (s.reloadTrunk t r).engine t = remodedEngine (s.engine t) r := by
  rw [reloadTrunk_eq]
  split
  · rename_i selects
    rw [select_frozen]
    · exact (recordTaken_trunk s t r).1
    · rintro ⟨_, takes⟩
      rw [(recordTaken_trunk s t r).1] at takes
      rcases h with h | h
      · exact Bool.false_ne_true (h.symm.trans takes)
      · exact Bool.false_ne_true (h.symm.trans selects)
  · exact (recordTaken_trunk s t r).1

theorem reloadTrunk_list (s : State) (t : Trunk) (r : TrunkRecord) :
    SameReports (s.list t) ((s.reloadTrunk t r).list t) := by
  have taken := (recordTaken_trunk s t r).2
  rw [reloadTrunk_eq]
  split
  · exact sameReports_trans taken (sameReports_select _ t)
  · exact taken

theorem recordTaken_live (s : State) (t : Trunk) (r : TrunkRecord) :
    (recordTaken s t r).schedulerLive = s.schedulerLive := by
  have only := recordTaken_only s t r
  unfold SelectsOnly at only
  rw [only]
  rfl

theorem reloadTrunk_selected {s : State} {t : Trunk} {r : TrunkRecord} (live : s.schedulerLive = true)
    (selects : s.reloadSelects t r = true) (takes : (remodedEngine (s.engine t) r).takesArming = true) :
    Selected (s.reloadTrunk t r) t := by
  rw [reloadTrunk_eq, if_pos selects]
  refine select_selected ((recordTaken_live s t r).trans live) ?_
  rw [(recordTaken_trunk s t r).1]
  exact takes

/-- A selection may arm and withdraw, and nothing else of the engine changes. -/
theorem reloadTrunk_rearmed (s : State) (t : Trunk) (r : TrunkRecord) :
    Rearmed (remodedEngine (s.engine t) r) ((s.reloadTrunk t r).engine t) := by
  rw [reloadTrunk_eq, ← (recordTaken_trunk s t r).1]
  split
  · exact (sendsOn_select _ t).engine
  · exact rearmed_refl _

/-- What a selection arms has the hold time of the timing in force (R28, R47). -/
theorem select_holdUnits {s : State} {t : Trunk} {m : Armed} (armed : ((s.select t).engine t).armed = some m) :
    (s.engine t).armed = some m ∨ m.holdUnits = (s.engine t).timing.hold + 2 * m.cls.code + 4 * m.retry.toNat := by
  by_cases on : s.schedulerLive = true ∧ (s.engine t).takesArming = true
  · rcases select_cases on.1 on.2 with ⟨_, k⟩ | ⟨e, _, ⟨_, k⟩ | ⟨_, k⟩⟩
    · rw [k, withdraw_armed] at armed
      cases armed
    · rw [k] at armed
      exact .inl armed
    · rw [k, armEntry_engine] at armed
      cases armed
      exact .inr rfl
  · rw [select_frozen on] at armed
    exact .inl armed

theorem reloadTrunk_holdUnits {s : State} {t : Trunk} {r : TrunkRecord} {m : Armed}
    (armed : ((s.reloadTrunk t r).engine t).armed = some m) :
    (remodedEngine (s.engine t) r).armed = some m
      ∨ m.holdUnits = (remodedEngine (s.engine t) r).timing.hold + 2 * m.cls.code + 4 * m.retry.toNat := by
  rw [reloadTrunk_eq] at armed
  rw [← (recordTaken_trunk s t r).1]
  split at armed
  · exact select_holdUnits armed
  · exact .inl armed

end Sys2Proof.Proofs

/-! SUPPORT. A RELOAD by an engine's old mode and its new one (O37; R46, R47, R88, R102). -/

namespace Sys2Proof.Proofs

open Sys2Proof.Machine Sys2Proof.Laws Sys2Proof.Safety

/-! ### From OFF (R26, R46) -/

theorem timing_of_off {e : Engine} (off : e.state = .off) (v : Timing) :
    (e.reloadTiming v).timing = v ∧ (e.reloadTiming v).pendingTiming = none := by
  by_cases same : v = e.timing ∧ e.pendingTiming = none
  · rw [reloadTiming_same same]
    exact ⟨same.1.symm, same.2⟩
  · rw [(reloadTiming_differs same).1 (.inr off)]
    exact ⟨rfl, rfl⟩

theorem reloadTrunk_offStays {s : State} {t : Trunk} {r : TrunkRecord} (agrees : OffAgrees (s.engine t))
    (old : (s.engine t).mode = .off) (new : r.mode = .off) :
    (s.reloadTrunk t r).engine t = (s.engine t).reloadTiming r.timing
      ∧ ((s.reloadTrunk t r).engine t).timing = r.timing ∧ ((s.reloadTrunk t r).engine t).pendingTiming = none := by
  have engine : remodedEngine (s.engine t) r = (s.engine t).reloadTiming r.timing := by
    unfold remodedEngine
    rw [if_pos old, if_pos new]
  have mode : ((s.engine t).reloadTiming r.timing).mode = .off := (reloadTiming_mode _ _).1.trans old
  have plain : (s.reloadTrunk t r).engine t = (s.engine t).reloadTiming r.timing := by
    rw [reloadTrunk_unselected, engine]
    refine .inl ?_
    rw [engine, Engine.takesArming, mode]
    rfl
  rw [plain]
  exact ⟨rfl, timing_of_off (agrees.1.1 old) r.timing⟩

theorem remodedEngine_entered {e : Engine} {r : TrunkRecord} (old : e.mode = .off) (new : r.mode ≠ .off) :
    remodedEngine e r = (e.reloadTiming r.timing).enterFromOff r.mode := by
  unfold remodedEngine
  rw [if_pos old, if_neg new]

/-- An engine that leaves OFF at a RELOAD is IDLE, or HOLDING with what the selection arms (R26, R46). -/
theorem reloadTrunk_entered {s : State} {t : Trunk} {r : TrunkRecord} (agrees : OffAgrees (s.engine t))
    (live : s.schedulerLive = true) (old : (s.engine t).mode = .off) (new : r.mode ≠ .off) :
    let w := s.reloadTrunk t r
    let g := w.engine t
    (g.timing = r.timing ∧ g.pendingTiming = none ∧ g.level = (s.engine t).level ∧ g.pendingOff = false)
      ∧ g.mode = r.mode ∧ g.state = (if g.armed = none then .idle else .holding) ∧ g.holdClock = 0 ∧ g.lowTime = 0
      ∧ g.candidate = false ∧ g.attempt = none ∧ (r.mode = .active → Selected w t) ∧ (r.mode = .listen → g.armed = none) := by
  have entered := remodedEngine_entered old new
  obtain ⟨timing, pending⟩ := timing_of_off (agrees.1.1 old) r.timing
  have level : ((s.engine t).reloadTiming r.timing).level = (s.engine t).level := by
    rw [(reloadTiming_rest _ _).1]
  have rearmed := (reloadTrunk_rearmed s t r).1
  rw [entered] at rearmed
  have state : ((s.reloadTrunk t r).engine t).state = ((s.reloadTrunk t r).engine t).restState := by
    have before : ((recordTaken s t r).engine t).state = ((recordTaken s t r).engine t).restState := by
      rw [(recordTaken_trunk s t r).1, entered]
      rfl
    rw [reloadTrunk_eq]
    split
    · exact select_restState before
    · exact before
  refine ⟨⟨?_, ?_, ?_, ?_⟩, ?_, ?_, ?_, ?_, ?_, ?_, fun active => ?_, fun listen => ?_⟩
  · rw [rearmed]
    exact timing
  · rw [rearmed]
    exact pending
  · rw [rearmed]
    exact level
  · rw [rearmed]
    rfl
  · rw [rearmed]
    rfl
  · rw [state, Engine.restState]
    cases ((s.reloadTrunk t r).engine t).armed <;> simp
  · rw [rearmed]
    rfl
  · rw [rearmed]
    rfl
  · rw [rearmed]
    rfl
  · rw [rearmed]
    rfl
  · refine reloadTrunk_selected live ?_ ?_
    · rw [reloadSelects_iff, old]
      exact .inl ⟨active, nofun⟩
    · rw [entered, active]
      rfl
  · rw [reloadTrunk_unselected, entered]
    · rfl
    · rw [entered, listen]
      exact .inl rfl

/-! ### To OFF (R46) -/

/-- An engine that a RELOAD sends OFF gets pending OFF, its armed entry withdrawn (R46). -/
theorem reloadTrunk_sentOff {s : State} {t : Trunk} {r : TrunkRecord} (old : (s.engine t).mode ≠ .off)
    (new : r.mode = .off) :
    (s.reloadTrunk t r).engine t
      = { withdrawnEngine ((s.engine t).reloadTiming r.timing) with pendingOff := true } := by
  have engine : remodedEngine (s.engine t) r
      = { withdrawnEngine ((s.engine t).reloadTiming r.timing) with pendingOff := true } := by
    unfold remodedEngine
    rw [if_neg old, new]
  rw [reloadTrunk_unselected, engine]
  rw [engine]
  exact .inl (Bool.and_false _)

theorem reloadTiming_fields (e : Engine) (v : Timing) :
    let g := e.reloadTiming v
    g.mode = e.mode ∧ g.pendingOff = e.pendingOff ∧ g.state = e.state ∧ g.attempt = e.attempt ∧ g.level = e.level
      ∧ g.pulse = e.pulse ∧ g.buffer = e.buffer ∧ g.window = e.window := by
  have rest := (reloadTiming_rest e v).1
  dsimp only at rest ⊢
  rw [rest]
  exact ⟨rfl, rfl, rfl, rfl, rfl, rfl, rfl, rfl⟩

/-- What a withdrawal at a RELOAD leaves of the engine (R28, R46). -/
theorem withdrawn_reloadTiming (e : Engine) (v : Timing) :
    let g := withdrawnEngine (e.reloadTiming v)
    g.mode = e.mode ∧ g.pendingOff = e.pendingOff ∧ g.armed = none ∧ g.attempt = e.attempt ∧ g.level = e.level
      ∧ g.pulse = e.pulse ∧ g.buffer = e.buffer ∧ g.window = e.window
      ∧ g.state = (if e.state = .holding ∧ e.armed ≠ none then .idle else e.state)
      ∧ g.timing = (e.reloadTiming v).timing ∧ g.pendingTiming = (e.reloadTiming v).pendingTiming
      ∧ g.holdClock = (e.reloadTiming v).holdClock := by
  have armed := armed_none_reloadTiming e v
  obtain ⟨mode, pendingOff, state, attempt, level, pulse, buffer, window⟩ := reloadTiming_fields e v
  unfold withdrawnEngine
  generalize e.reloadTiming v = g at *
  refine ⟨mode, pendingOff, rfl, attempt, level, pulse, buffer, window, ?_, rfl, rfl, rfl⟩
  simp only [ne_eq, armed, state]

/-- An engine goes OFF at the RELOAD itself exactly where it is at rest or stuck, and has no outcome to wait for. -/
theorem sentOff_due {s : State} {t : Trunk} {r : TrunkRecord} (old : (s.engine t).mode ≠ .off) (new : r.mode = .off) :
    ((s.reloadTrunk t r).engine t).offDue = true ↔
      ((s.engine t).state = .idle ∨ (s.engine t).state = .holding ∨ (s.engine t).state = .stuck)
        ∧ (s.engine t).attempt = none := by
  obtain ⟨_, _, _, attempt, _, _, _, _, state, _⟩ := withdrawn_reloadTiming (s.engine t) r.timing
  rw [offDue_iff, reloadTrunk_sentOff old new]
  simp only [attempt, state, true_and]
  refine and_congr_left fun _ => ?_
  by_cases h : (s.engine t).state = .holding ∧ (s.engine t).armed ≠ none
  · rw [if_pos h]
    simp [h.1]
  · rw [if_neg h]

/-- The engine that has gone OFF at the RELOAD (R25, R46, R47). -/
theorem sentOff_entersOff {s : State} {t : Trunk} {r : TrunkRecord} (old : (s.engine t).mode ≠ .off)
    (new : r.mode = .off) :
    let g := ((s.reloadTrunk t r).engine t).enterOff
    g.mode = .off ∧ g.state = .off ∧ g.pendingOff = false ∧ g.timing = r.timing ∧ g.pendingTiming = none
      ∧ g.armed = none ∧ g.drives = false ∧ g.holdClock = 0 ∧ g.lowTime = 0 ∧ g.recoveryTime = 0
      ∧ g.buffer.octets = [] := by
  have sent := reloadTrunk_sentOff old new
  refine ⟨rfl, rfl, rfl, ?_, rfl, rfl, rfl, rfl, rfl, rfl, rfl⟩
  rw [sent]
  show (((s.engine t).reloadTiming r.timing).pendingTiming).getD ((s.engine t).reloadTiming r.timing).timing = r.timing
  by_cases same : r.timing = (s.engine t).timing ∧ (s.engine t).pendingTiming = none
  · rw [reloadTiming_same same, same.2]
    exact same.1.symm
  · obtain ⟨now, later⟩ := reloadTiming_differs same
    by_cases h : TakesTiming (s.engine t) ∨ (s.engine t).state = .off
    · rw [now h]
      rfl
    · rw [not_or] at h
      rw [later h.1 h.2]
      rfl

/-! ### To LISTEN and ACTIVE (R46, R88) -/

theorem remodedEngine_listens {e : Engine} {r : TrunkRecord} (old : e.mode ≠ .off) (new : r.mode = .listen) :
    remodedEngine e r = { withdrawnEngine (e.reloadTiming r.timing) with mode := .listen, pendingOff := false } := by
  unfold remodedEngine
  rw [if_neg old, new]

theorem remodedEngine_acts {e : Engine} {r : TrunkRecord} (old : e.mode ≠ .off) (new : r.mode = .active) :
    remodedEngine e r = { e.reloadTiming r.timing with mode := .active, pendingOff := false } := by
  unfold remodedEngine
  rw [if_neg old, new]

theorem reloadTrunk_listens {s : State} {t : Trunk} {r : TrunkRecord} (old : (s.engine t).mode ≠ .off)
    (new : r.mode = .listen) :
    (s.reloadTrunk t r).engine t
      = { withdrawnEngine ((s.engine t).reloadTiming r.timing) with mode := .listen, pendingOff := false } := by
  rw [reloadTrunk_unselected, remodedEngine_listens old new]
  rw [remodedEngine_listens old new]
  exact .inl rfl

/-- What a RELOAD to LISTEN or ACTIVE keeps of an engine that is not OFF, and the mode it takes (R46). -/
theorem remodedEngine_on {e : Engine} {r : TrunkRecord} (old : e.mode ≠ .off) (new : r.mode ≠ .off) :
    let g := remodedEngine e r
    g.mode = r.mode ∧ g.pendingOff = false ∧ g.attempt = e.attempt ∧ g.level = e.level ∧ g.pulse = e.pulse
      ∧ g.buffer = e.buffer ∧ g.window = e.window ∧ g.timing = (e.reloadTiming r.timing).timing
      ∧ g.pendingTiming = (e.reloadTiming r.timing).pendingTiming
      ∧ g.holdClock = (e.reloadTiming r.timing).holdClock
      ∧ (∀ m, g.armed = some m → (e.reloadTiming r.timing).armed = some m) := by
  cases mode : r.mode with
  | off => exact absurd mode new
  | listen =>
    obtain ⟨_, _, armed, attempt, level, pulse, buffer, window, _, timing, pending, clock⟩ :=
      withdrawn_reloadTiming e r.timing
    rw [remodedEngine_listens old mode]
    refine ⟨rfl, rfl, attempt, level, pulse, buffer, window, timing, pending, clock, fun m h => ?_⟩
    exact absurd (armed.symm.trans h) (Option.some_ne_none m).symm
  | active =>
    obtain ⟨_, _, _, attempt, level, pulse, buffer, window⟩ := reloadTiming_fields e r.timing
    rw [remodedEngine_acts old mode]
    exact ⟨rfl, rfl, attempt, level, pulse, buffer, window, rfl, rfl, rfl, fun m h => h⟩

/-- The same once a selection has been made. -/
theorem reloadTrunk_on {s : State} {t : Trunk} {r : TrunkRecord} (old : (s.engine t).mode ≠ .off) (new : r.mode ≠ .off) :
    let e := s.engine t
    let g := (s.reloadTrunk t r).engine t
    (g.mode = r.mode ∧ g.pendingOff = false ∧ g.attempt = e.attempt ∧ g.level = e.level ∧ g.pulse = e.pulse
        ∧ g.buffer = e.buffer ∧ g.window = e.window)
      ∧ g.timing = (e.reloadTiming r.timing).timing ∧ g.pendingTiming = (e.reloadTiming r.timing).pendingTiming
      ∧ g.holdClock = (e.reloadTiming r.timing).holdClock
      ∧ (∀ m, g.armed = some m → (e.reloadTiming r.timing).armed = some m
          ∨ m.holdUnits = (e.reloadTiming r.timing).timing.hold + 2 * m.cls.code + 4 * m.retry.toNat) := by
  obtain ⟨mode, pendingOff, attempt, level, pulse, buffer, window, timing, pending, clock, armed⟩ := remodedEngine_on old new
  have rearmed := (reloadTrunk_rearmed s t r).1
  have units := fun m => reloadTrunk_holdUnits (s := s) (t := t) (r := r) (m := m)
  dsimp only at rearmed mode pendingOff attempt level pulse buffer window timing pending clock armed ⊢
  refine ⟨⟨?_, ?_, ?_, ?_, ?_, ?_, ?_⟩, ?_, ?_, ?_, fun m h => ?_⟩
  · rw [rearmed, mode]
  · rw [rearmed, pendingOff]
  · rw [rearmed, attempt]
  · rw [rearmed, level]
  · rw [rearmed, pulse]
  · rw [rearmed, buffer]
  · rw [rearmed, window]
  · rw [rearmed, timing]
  · rw [rearmed, pending]
  · rw [rearmed, clock]
  · rw [timing] at units
    exact (units m h).imp_left (armed m)

/-- Without a selection the armed entry and the state stay at a RELOAD to ACTIVE. -/
theorem reloadTrunk_acts {s : State} {t : Trunk} {r : TrunkRecord} (old : (s.engine t).mode ≠ .off)
    (new : r.mode = .active) :
    (s.reloadSelects t r = true → s.schedulerLive = true → Selected (s.reloadTrunk t r) t)
      ∧ (s.reloadSelects t r = false →
          (s.reloadTrunk t r).engine t
            = { (s.engine t).reloadTiming r.timing with mode := .active, pendingOff := false }) := by
  refine ⟨fun selects live => reloadTrunk_selected live selects ?_, fun none => ?_⟩
  · rw [remodedEngine_acts old new]
    rfl
  · rw [reloadTrunk_unselected (.inr none), remodedEngine_acts old new]

/-! ### The timing values (R47) -/

/-- Timing values that are those in force, with none pending, change nothing of the timing, the clock or the arming. -/
theorem reloadTiming_cases (e : Engine) (v : Timing) (on : e.state ≠ .off) :
    (v = e.timing ∧ e.pendingTiming = none → e.reloadTiming v = e)
      ∧ (¬ (v = e.timing ∧ e.pendingTiming = none) → TakesTiming e → e.reloadTiming v = retimed e v)
      ∧ (¬ (v = e.timing ∧ e.pendingTiming = none) → ¬ TakesTiming e →
          e.reloadTiming v = { e with pendingTiming := some v }) :=
  ⟨reloadTiming_same, fun differs taken => (reloadTiming_differs differs).1 (.inl taken),
    fun differs not => (reloadTiming_differs differs).2 not on⟩

end Sys2Proof.Proofs

/-! SUPPORT. RELOAD settled for the modes (O37; R46, R47, R88, R102). -/

namespace Sys2Proof.Proofs

open Sys2Proof.Machine Sys2Proof.Laws Sys2Proof.Safety

/-! ### Trunks that go OFF at once (R46, R102) -/

theorem finishTrunk_repeats (s : State) (t : Trunk) (c : ResultCode) (w : Word) (uncounted : c.endsRound = false) :
    ∀ x ∈ (s.finishTrunk t c w).sched.repeats, x ∈ s.sched.repeats := by
  have handed : ∀ (l : List Entry) (r : State), ∀ x ∈ (handOnAll c w l r).sched.repeats, x ∈ r.sched.repeats := by
    intro l
    induction l with
    | nil => exact fun r x hx => hx
    | cons y ys ih =>
      intro r x hx
      have left := ih _ x hx
      rw [handOn_uncounted r y c w uncounted] at left
      dsimp only at left
      split at left
      · exact (List.mem_filter.1 left).1
      · exact left
  intro x hx
  have eq := finishTrunk_eq s t c w
  dsimp only at eq
  rw [eq, endRepeats_eq] at hx
  have left := handed _ _ x (List.mem_filter.1 hx).1
  rw [withdraw_setList] at left
  exact left

theorem trunkEnded_finishTrunk {s : State} {t : Trunk} {c : ResultCode} (uncounted : c.endsRound = false) (w : Word)
    (distinct : DistinctOn s t) : TrunkEnded c w s (s.finishTrunk t c w) t := by
  obtain ⟨left, leftOver, eq⟩ := finishTrunk_uncounted s t c uncounted w distinct
  refine ⟨left, leftOver, ?_, ?_⟩
  · rw [eq]
  · rw [eq]

theorem trunkEnded_of_processed {r v : State} {t : Trunk} (processed : TrunkProcessed r v t) (distinct : DistinctOn r t) :
    TrunkEnded .trunkOff r.session.deviceTime r v t := by
  obtain ⟨_, _, all⟩ := processed
  obtain ⟨left, leftOver, sched, results⟩ := all distinct
  exact ⟨left, leftOver, results, congrArg Scheduler.repeats sched⟩

theorem takeOffReport_repeats (s : State) (t : Trunk) : ∀ x ∈ (s.takeOffReport t).sched.repeats, x ∈ s.sched.repeats := by
  rcases takeOffReport_cases s t with ⟨_, h⟩ | ⟨_, _, h⟩ | ⟨_, _, h⟩
  · rw [h]
    exact fun x hx => hx
  · rw [h]
    exact fun x hx => hx
  · rw [h]
    exact finishTrunk_repeats (s.setOffDone t true) t .trunkOff s.now rfl

theorem offAtOnce_undue {s : State} {t : Trunk} (undue : (s.engine t).offDue = false) : s.offAtOnce t = s := by
  unfold State.offAtOnce
  rw [undue]
  rfl

/-- An engine that goes OFF in RUNNING or PAUSED: its trunk is processed at once (R46, R102). -/
theorem offAtOnce_due {s : State} {t : Trunk} (due : (s.engine t).offDue = true)
    (st : s.session.state = .running ∨ s.session.state = .paused) :
    (s.offAtOnce t).engine t = (s.engine t).enterOff
      ∧ TrunkProcessed (s.setEngine t (s.engine t).enterOff) (s.offAtOnce t) t := by
  have eq : s.offAtOnce t = (s.setEngine t (s.engine t).enterOff).takeOffReport t := by
    unfold State.offAtOnce
    rw [due]
    rfl
  obtain ⟨engines, _, live, _⟩ := takeOffReport_parts (r := s.setEngine t (s.engine t).enterOff) (t := t)
    (by rw [engine_setEngine_same]; rfl)
  rw [eq]
  refine ⟨?_, live ?_ ?_⟩
  · rw [State.engine, engines]
    exact engine_setEngine_same _ _ _
  · show s.schedulerLive = true
    unfold State.schedulerLive
    rcases st with st | st <;> rw [st]
  · show s.session.state ≠ .standby
    rcases st with st | st <;> rw [st] <;> decide

theorem offAtOnce_others (s : State) (t : Trunk) : OtherTrunksSame s (s.offAtOnce t) t := by
  unfold State.offAtOnce
  split
  · exact otherTrunksSame_trans (updateEngine_others s t Engine.enterOff)
      (sendsOn_takeOffReport (s.updateEngine t Engine.enterOff) t).others
  · exact fun _ _ => ⟨rfl, rfl⟩

theorem offAtOnce_repeats (s : State) (t : Trunk) : ∀ x ∈ (s.offAtOnce t).sched.repeats, x ∈ s.sched.repeats := by
  unfold State.offAtOnce
  split
  · exact takeOffReport_repeats (s.updateEngine t Engine.enterOff) t
  · exact fun x hx => hx

/-- From `s` to `v` engines have gone OFF, and no repetition has come. -/
def OffsNoneNew (s v : State) : Prop := OffsOnly s v ∧ ∀ x ∈ v.sched.repeats, x ∈ s.sched.repeats

theorem offsNoneNew_trans (r s v : State) (h : OffsNoneNew r s) (k : OffsNoneNew s v) : OffsNoneNew r v :=
  ⟨offsOnly_trans _ _ _ h.1 k.1, fun x hx => h.2 x (k.2 x hx)⟩

theorem offsNoneNew_session {s v : State} (h : OffsNoneNew s v) : v.session = s.session := by
  obtain ⟨⟨⟨⟨_, session, _⟩, _⟩, _⟩, _⟩ := h
  exact session

theorem offsNoneNew_windowMode {s v : State} (h : OffsNoneNew s v) : v.sched.windowMode = s.sched.windowMode := by
  obtain ⟨⟨_, _, _, sched⟩, _⟩ := h
  rw [sched]

theorem settingsOnly_session {s v : State} (h : SettingsOnly s v) : v.session = s.session := by
  unfold SettingsOnly at h
  rw [h]

theorem offsAtOnce_trunk (s : State) (o : Trunk) :
    ∃ q, OffsNoneNew s q ∧ q.engine o = s.engine o ∧ q.list o = s.list o ∧ OffsNoneNew (q.offAtOnce o) (offsAtOnce s)
      ∧ (offsAtOnce s).engine o = (q.offAtOnce o).engine o ∧ (offsAtOnce s).list o = (q.offAtOnce o).list o :=
  inTurn_trunk (f := State.offAtOnce) (fun s => ⟨offsOnly_refl s, fun _ hx => hx⟩) offsNoneNew_trans
    (fun s t => ⟨offsOnly_offAtOnce s t, offAtOnce_repeats s t⟩) offAtOnce_others s o

/-! ### One trunk of a RELOAD -/

theorem reloaded_trunk (s : State) (h : HeaderBytes) (o : Trunk) :
    (reloaded s h).engine o = (trunkView ((headerLeft s s.memory).handSettings (settings h)) o).engine
      ∧ (reloaded s h).list o = (trunkView ((headerLeft s s.memory).handSettings (settings h)) o).list := ⟨rfl, rfl⟩

/-- What a RELOAD makes of a trunk: its record taken in a state that shows the trunk as it was; then it goes OFF where
that is due, and stays as it is where not. -/
theorem reload_trunk (s : State) (h : HeaderBytes) (o : Trunk) (st : s.session.state = .running ∨ s.session.state = .paused) :
    ∃ u : State, u.engine o = s.engine o ∧ u.list o = s.list o
      ∧ u.sched.windowMode.get o = s.sched.windowMode.get o ∧ u.schedulerLive = true
      ∧ ((reloaded s h).engine o = (u.reloadTrunk o (trunkRecord h o)).engine o
        ∧ (reloaded s h).list o = (u.reloadTrunk o (trunkRecord h o)).list o)
      ∧ (((reloaded s h).engine o).offDue = false →
          (offsAtOnce (reloaded s h)).engine o = (reloaded s h).engine o
          ∧ (offsAtOnce (reloaded s h)).list o = (reloaded s h).list o
          ∧ (Selected (u.reloadTrunk o (trunkRecord h o)) o → Selected (offsAtOnce (reloaded s h)) o))
      ∧ (((reloaded s h).engine o).offDue = true →
          (offsAtOnce (reloaded s h)).engine o = ((reloaded s h).engine o).enterOff
          ∧ (offsAtOnce (reloaded s h)).list o = []
          ∧ ∀ x ∈ (offsAtOnce (reloaded s h)).sched.repeats, x.copy.trunk ≠ o) := by
  obtain ⟨u, taken, before, rest, after⟩ := handSettings_trunk (headerLeft s s.memory) h o
  obtain ⟨engine, list⟩ : (reloaded s h).engine o = (u.reloadTrunk o (trunkRecord h o)).engine o
      ∧ (reloaded s h).list o = (u.reloadTrunk o (trunkRecord h o)).list o :=
    ⟨congrArg TrunkView.engine after, congrArg TrunkView.list after⟩
  have window : (reloaded s h).session.window = (u.reloadTrunk o (trunkRecord h o)).session.window := by
    show ((headerLeft s s.memory).handSettings (settings h)).session.window = _
    rw [settingsOnly_session rest]
  have windowMode : (reloaded s h).sched.windowMode.get o = (u.reloadTrunk o (trunkRecord h o)).sched.windowMode.get o :=
    congrArg TrunkView.windowMode after
  have state : (reloaded s h).session.state = s.session.state := by
    obtain ⟨whole, _⟩ := reloaded_rest s h
    rw [whole]
  have live : u.schedulerLive = true := by
    unfold SettingsOnly at taken
    rw [taken]
    show s.schedulerLive = true
    unfold State.schedulerLive
    rcases st with st | st <;> rw [st]
  obtain ⟨q, offs, qengine, qlist, since, fengine, flist⟩ := offsAtOnce_trunk (reloaded s h) o
  have qsession := offsNoneNew_session offs
  refine ⟨u, congrArg TrunkView.engine before, congrArg TrunkView.list before, congrArg TrunkView.windowMode before, live,
    ⟨engine, list⟩, fun undue => ?_, fun due => ?_⟩
  · rw [← qengine] at undue
    rw [offAtOnce_undue undue] at fengine flist
    refine ⟨fengine.trans qengine, flist.trans qlist, fun selected => ?_⟩
    have whole := offsNoneNew_trans _ _ _ offs (offAtOnce_undue undue ▸ since)
    refine selected_congr selected ((fengine.trans qengine).trans engine) ((flist.trans qlist).trans list) ?_ ?_
    · rw [offsNoneNew_session whole, window]
    · rw [offsNoneNew_windowMode whole, windowMode]
  · rw [← qengine] at due
    obtain ⟨entered, empty, none, _⟩ := offAtOnce_due due (by rw [qsession, state]; exact st)
    refine ⟨?_, flist.trans empty, fun x hx => none x (since.2 x hx)⟩
    rw [fengine, entered, qengine]

theorem undue_of_pendingOff {e : Engine} (clear : e.pendingOff = false) : e.offDue = false := by
  unfold Engine.offDue
  rw [clear]
  rfl

theorem not_offDue {e : Engine} {p : Prop} (due : e.offDue = true ↔ p) (not : ¬ p) : e.offDue = false :=
  Bool.eq_false_iff.2 fun h => not (due.1 h)

/-! ### The obligation -/

/-- What ReloadModes says of a trunk that was OFF (R26, R46). -/
theorem reloadModes_fromOff {s : State} {h : HeaderBytes} (st : s.session.state = .running ∨ s.session.state = .paused)
    (o : Trunk) (agrees : OffAgrees (s.engine o)) (old : (s.engine o).mode = .off) :
    let e := s.engine o
    let v := offsAtOnce (reloaded s h)
    let g := v.engine o
    let r := trunkRecord h o
    g.timing = r.timing ∧ g.pendingTiming = none ∧ (v.list o).map Entry.index = (s.list o).map Entry.index
      ∧ g.level = e.level ∧ g.pendingOff = false
      ∧ (r.mode = .off → g.mode = .off ∧ g.state = .off ∧ (e.armed = none → g.armed = none))
      ∧ (r.mode ≠ .off →
          g.mode = r.mode ∧ g.state = (if g.armed = none then .idle else .holding) ∧ g.holdClock = 0
          ∧ g.lowTime = 0 ∧ g.candidate = false ∧ g.attempt = none
          ∧ (r.mode = .active → Selected v o) ∧ (r.mode = .listen → g.armed = none)) := by
  obtain ⟨u, engine, list, _, live, ⟨taken, takenList⟩, stays, _⟩ := reload_trunk s h o st
  have reports := reloadTrunk_list u o (trunkRecord h o)
  rw [list, ← takenList] at reports
  have agrees' : OffAgrees (u.engine o) := engine ▸ agrees
  have old' : (u.engine o).mode = .off := engine ▸ old
  intro e v g r
  by_cases new : (trunkRecord h o).mode = .off
  · have timed := (reloadTrunk_offStays agrees' old' new).1
    obtain ⟨timing, pending⟩ := timing_of_off (agrees.1.1 old) (trunkRecord h o).timing
    obtain ⟨mode, pendingOff, state, _, level, _⟩ := reloadTiming_fields (s.engine o) (trunkRecord h o).timing
    rw [← taken, engine] at timed
    obtain ⟨same, sameList, _⟩ := stays (undue_of_pendingOff (by rw [timed, pendingOff]; exact agrees.2 old))
    have whole : g = (s.engine o).reloadTiming (trunkRecord h o).timing := same.trans timed
    rw [whole]
    refine ⟨timing, pending, ?_, level, pendingOff.trans (agrees.2 old),
      fun _ => ⟨mode.trans old, state.trans (agrees.1.1 old), (armed_none_reloadTiming _ _).2⟩, fun k => absurd new k⟩
    rw [sameList]
    exact sameReports_indices reports
  · obtain ⟨⟨timing, pending, level, pendingOff⟩, mode, state, clock, low, candidate, attempt, selected, listens⟩ :=
      reloadTrunk_entered agrees' live old' new
    obtain ⟨same, sameList, select⟩ := stays (undue_of_pendingOff (by rw [taken, pendingOff]))
    have whole : g = (u.reloadTrunk o (trunkRecord h o)).engine o := same.trans taken
    rw [← whole] at timing pending level pendingOff mode state clock low candidate attempt listens
    refine ⟨timing, pending, ?_, ?_, pendingOff, fun k => absurd k new,
      fun _ => ⟨mode, state, clock, low, candidate, attempt, fun active => select (selected active), listens⟩⟩
    · rw [sameList]
      exact sameReports_indices reports
    · rw [level, engine]

/-- What ReloadModes says of a trunk that is sent OFF (R46, R102). -/
theorem reloadModes_toOff {s : State} {h : HeaderBytes} (st : s.session.state = .running ∨ s.session.state = .paused)
    (o : Trunk) (old : (s.engine o).mode ≠ .off) (new : (trunkRecord h o).mode = .off) :
    let e := s.engine o
    let v := offsAtOnce (reloaded s h)
    let g := v.engine o
    let r := trunkRecord h o
    let goesOff := (e.state = .idle ∨ e.state = .holding ∨ e.state = .stuck) ∧ e.attempt = none
    (goesOff →
        (g.mode = .off ∧ g.state = .off ∧ g.pendingOff = false ∧ g.timing = r.timing ∧ g.pendingTiming = none
          ∧ g.armed = none ∧ g.drives = false ∧ g.holdClock = 0 ∧ g.lowTime = 0 ∧ g.recoveryTime = 0
          ∧ g.buffer.octets = [])
        ∧ v.list o = [] ∧ ∀ x ∈ v.sched.repeats, x.copy.trunk ≠ o)
      ∧ (¬ goesOff →
        (g.mode = e.mode ∧ g.pendingOff = true ∧ g.armed = none ∧ g.attempt = e.attempt
          ∧ (v.list o).map Entry.index = (s.list o).map Entry.index
          ∧ g.state = (if e.state = .holding ∧ e.armed ≠ none then .idle else e.state))
        ∧ g.timing = (e.reloadTiming r.timing).timing ∧ g.pendingTiming = (e.reloadTiming r.timing).pendingTiming
        ∧ g.holdClock = (e.reloadTiming r.timing).holdClock) := by
  obtain ⟨u, engine, list, _, _, ⟨taken, takenList⟩, stays, goes⟩ := reload_trunk s h o st
  have reports := reloadTrunk_list u o (trunkRecord h o)
  rw [list, ← takenList] at reports
  rw [← engine] at old
  have due := sentOff_due old new
  rw [← taken, engine] at due
  intro e v g r goesOff
  refine ⟨fun now => ?_, fun not => ?_⟩
  · obtain ⟨entered, empty, none⟩ := goes (due.2 now)
    have off := sentOff_entersOff old new
    rw [← taken, ← entered] at off
    exact ⟨off, empty, none⟩
  · obtain ⟨same, sameList, _⟩ := stays (not_offDue due not)
    obtain ⟨mode, _, armed, attempt, _, _, _, _, state, timing, pending, clock⟩ :=
      withdrawn_reloadTiming (s.engine o) (trunkRecord h o).timing
    have whole : g = { withdrawnEngine (e.reloadTiming r.timing) with pendingOff := true } := by
      show v.engine o = _
      rw [same, taken, reloadTrunk_sentOff old new, engine]
    rw [whole]
    refine ⟨⟨mode, rfl, armed, attempt, ?_, state⟩, timing, pending, clock⟩
    rw [sameList]
    exact sameReports_indices reports

/-- What ReloadModes says of a trunk that stays on (R46, R88). -/
theorem reloadModes_on {s : State} {h : HeaderBytes} (st : s.session.state = .running ∨ s.session.state = .paused)
    (o : Trunk) (old : (s.engine o).mode ≠ .off) (new : (trunkRecord h o).mode ≠ .off) :
    let e := s.engine o
    let v := offsAtOnce (reloaded s h)
    let g := v.engine o
    let r := trunkRecord h o
    let selects := (r.mode = .active ∧ e.mode ≠ .active) ∨ (r.mode ≠ .off ∧ e.pendingOff = true)
      ∨ r.windowMode ≠ s.sched.windowMode.get o
    (g.mode = r.mode ∧ g.pendingOff = false ∧ g.attempt = e.attempt
        ∧ (v.list o).map Entry.index = (s.list o).map Entry.index ∧ g.level = e.level ∧ g.pulse = e.pulse
        ∧ g.buffer = e.buffer ∧ g.window = e.window)
      ∧ (r.mode = .listen →
          g.armed = none ∧ g.state = (if e.state = .holding ∧ e.armed ≠ none then .idle else e.state))
      ∧ (r.mode = .active → selects → Selected v o)
      ∧ (r.mode = .active → ¬ selects →
          g.armed = (e.reloadTiming r.timing).armed ∧ g.state = (e.reloadTiming r.timing).state)
      ∧ g.timing = (e.reloadTiming r.timing).timing ∧ g.pendingTiming = (e.reloadTiming r.timing).pendingTiming
      ∧ g.holdClock = (e.reloadTiming r.timing).holdClock
      ∧ (∀ m, g.armed = some m → (e.reloadTiming r.timing).armed = some m
          ∨ m.holdUnits = (e.reloadTiming r.timing).timing.hold + 2 * m.cls.code + 4 * m.retry.toNat) := by
  obtain ⟨u, engine, list, windowMode, live, ⟨taken, takenList⟩, stays, _⟩ := reload_trunk s h o st
  have reports := reloadTrunk_list u o (trunkRecord h o)
  rw [list, ← takenList] at reports
  have old' : (u.engine o).mode ≠ .off := engine ▸ old
  obtain ⟨⟨mode, pendingOff, attempt, level, pulse, buffer, window⟩, timing, pending, clock, armed⟩ :=
    reloadTrunk_on old' new
  obtain ⟨same, sameList, select⟩ := stays (undue_of_pendingOff (by rw [taken]; exact pendingOff))
  have whole : (offsAtOnce (reloaded s h)).engine o = (u.reloadTrunk o (trunkRecord h o)).engine o := same.trans taken
  have selects := reloadSelects_iff u o (trunkRecord h o)
  rw [engine, windowMode] at selects
  rw [← whole, engine] at attempt level pulse buffer window timing pending clock armed
  rw [← whole] at mode pendingOff
  refine ⟨⟨mode, pendingOff, attempt, ?_, level, pulse, buffer, window⟩, fun listen => ?_, fun active called => ?_,
    fun active not => ?_, timing, pending, clock, armed⟩
  · rw [sameList]
    exact sameReports_indices reports
  · obtain ⟨_, _, withdrawn, _, _, _, _, _, state, _⟩ := withdrawn_reloadTiming (s.engine o) (trunkRecord h o).timing
    rw [whole, reloadTrunk_listens old' listen, engine]
    exact ⟨withdrawn, state⟩
  · exact select ((reloadTrunk_acts old' active).1 (selects.2 called) live)
  · rw [whole, (reloadTrunk_acts old' active).2 (Bool.eq_false_iff.2 fun k => not (selects.1 k)), engine]
    exact ⟨rfl, rfl⟩

/-- What becomes of the timing values of an engine that is not OFF (R47). -/
theorem reloadModes_timing {e g : Engine} {v : Timing} (on : e.state ≠ .off)
    (timing : g.timing = (e.reloadTiming v).timing) (pending : g.pendingTiming = (e.reloadTiming v).pendingTiming)
    (clock : g.holdClock = (e.reloadTiming v).holdClock)
    (armed : ∀ m, g.armed = some m → (e.reloadTiming v).armed = some m
      ∨ m.holdUnits = (e.reloadTiming v).timing.hold + 2 * m.cls.code + 4 * m.retry.toNat) :
    let same := v = e.timing ∧ e.pendingTiming = none
    (same ∨ ¬ TakesTiming e → g.holdClock = e.holdClock)
      ∧ (same → g.timing = e.timing ∧ g.pendingTiming = none)
      ∧ (¬ same → TakesTiming e → g.timing = v ∧ g.pendingTiming = none ∧ g.holdClock = 0
          ∧ ∀ m, g.armed = some m → m.holdUnits = v.hold + 2 * m.cls.code + 4 * m.retry.toNat)
      ∧ (¬ same → ¬ TakesTiming e → g.timing = e.timing ∧ g.pendingTiming = some v) := by
  intro same
  obtain ⟨kept, now, later⟩ := reloadTiming_cases e v on
  rw [timing, pending, clock]
  refine ⟨fun unchanged => ?_, fun k => ?_, fun k takes => ?_, fun k not => ?_⟩
  · by_cases k : same
    · rw [kept k]
    · rw [later k (unchanged.resolve_left k)]
  · rw [kept k]
    exact ⟨rfl, k.2⟩
  · rw [now k takes] at armed ⊢
    refine ⟨rfl, rfl, rfl, fun m hm => ?_⟩
    rcases armed m hm with h | h
    · obtain ⟨a, _, rfl⟩ := Option.map_eq_some_iff.1 h
      rfl
    · exact h
  · rw [later k not]
    exact ⟨rfl, rfl⟩

/-- The armed entry of an engine whose timing does not change at once stays. -/
theorem armed_of_unchanged {e : Engine} {v : Timing} (on : e.state ≠ .off)
    (unchanged : (v = e.timing ∧ e.pendingTiming = none) ∨ ¬ TakesTiming e) : (e.reloadTiming v).armed = e.armed := by
  obtain ⟨kept, _, later⟩ := reloadTiming_cases e v on
  by_cases same : v = e.timing ∧ e.pendingTiming = none
  · rw [kept same]
  · rw [later same (unchanged.resolve_left same)]

end Sys2Proof.Proofs

/-! SUPPORT. What a RELOAD that sends trunks OFF hands on, and O37 (R46, R102, R116). -/

namespace Sys2Proof.Proofs

open Sys2Proof.Machine Sys2Proof.Laws Sys2Proof.Safety

/-! ### Lists that report the same -/

theorem sameReports_trunkEnds {l m : List Entry} (h : SameReports l m) (table left : List RepeatEntry) (c : ResultCode)
    (w : Word) : trunkEnds table m left c w = trunkEnds table l left c w := by
  obtain ⟨f, rfl, hf⟩ := h
  have same := trunkEnds_sameReport (f := id) (l := l) (fun x _ => hf x) table left c w
  rw [List.map_id] at same
  exact same

theorem sameReports_leftOver {l m : List Entry} (h : SameReports l m) {table left : List RepeatEntry} {t : Trunk}
    (k : LeftOver table t m left) : LeftOver table t l left := by
  obtain ⟨f, rfl, hf⟩ := h
  have same := leftOver_sameReport (f := id) (l := l) (fun x _ => hf x) k
  rw [List.map_id] at same
  exact same

theorem tablesAgree_sameReports {s v : State} (agree : TablesAgree s) (repeats : v.sched.repeats = s.sched.repeats)
    (lists : ∀ o, SameReports (s.list o) (v.list o)) : TablesAgree v := by
  obtain ⟨distinct, rounds⟩ := agree
  refine ⟨fun o => ⟨?_, ?_⟩, fun o y hy round => ?_⟩
  · rw [sameReports_indices (lists o)]
    exact (distinct o).1
  · rw [repeats]
    exact (distinct o).2
  · obtain ⟨f, list, same⟩ := lists o
    rw [list] at hy
    obtain ⟨x, hx, rfl⟩ := List.mem_map.1 hy
    obtain ⟨index, isRound, _⟩ := same x
    obtain ⟨r, mem, own, trunk⟩ := rounds o x hx (isRound.symm.trans round)
    exact ⟨r, repeats ▸ mem, own.trans index.symm, trunk⟩

/-! ### The trunks that go OFF -/

theorem goesOffAtOnce_iff (e : Engine) (m : Mode) : goesOffAtOnce e m = true ↔
    e.mode ≠ .off ∧ m = .off ∧ (e.state = .idle ∨ e.state = .holding ∨ e.state = .stuck) ∧ e.attempt = none := by
  unfold goesOffAtOnce
  simp [and_assoc, or_assoc]

theorem reloaded_list {s : State} {h : HeaderBytes} (st : s.session.state = .running ∨ s.session.state = .paused)
    (o : Trunk) : SameReports (s.list o) ((reloaded s h).list o) := by
  obtain ⟨u, _, list, _, _, ⟨_, takenList⟩, _⟩ := reload_trunk s h o st
  rw [takenList, ← list]
  exact reloadTrunk_list u o _

/-- Which engines a RELOAD sends OFF at once (R46; log 15). -/
theorem reloaded_offDue {s : State} {h : HeaderBytes} (st : s.session.state = .running ∨ s.session.state = .paused)
    (o : Trunk) (agrees : OffAgrees (s.engine o)) :
    ((reloaded s h).engine o).offDue = goesOffAtOnce (s.engine o) (trunkRecord h o).mode := by
  obtain ⟨u, engine, _, _, live, ⟨taken, _⟩, _⟩ := reload_trunk s h o st
  rw [taken, Bool.eq_iff_iff, goesOffAtOnce_iff, ← engine]
  rw [← engine] at agrees
  by_cases old : (u.engine o).mode = .off
  · have clear : ((u.reloadTrunk o (trunkRecord h o)).engine o).pendingOff = false := by
      by_cases new : (trunkRecord h o).mode = .off
      · rw [(reloadTrunk_offStays agrees old new).1, (reloadTiming_fields _ _).2.1]
        exact agrees.2 old
      · exact (reloadTrunk_entered agrees live old new).1.2.2.2
    rw [undue_of_pendingOff clear]
    exact ⟨fun k => absurd k Bool.false_ne_true, fun k => absurd old k.1⟩
  · by_cases new : (trunkRecord h o).mode = .off
    · rw [sentOff_due old new]
      exact ⟨fun k => ⟨old, new, k⟩, fun k => k.2.2⟩
    · rw [undue_of_pendingOff (reloadTrunk_on old new).1.2.1]
      exact ⟨fun k => absurd k Bool.false_ne_true, fun k => absurd k.2.1 new⟩

/-- What a trunk's turn finds: its engine, its list and the session as the settings left them. -/
def BeforeOff (s : State) (o : Trunk) (r : State) : Prop :=
  r.engine o = s.engine o ∧ r.list o = s.list o ∧ r.session = s.session

theorem offsAtOnce_ended {s : State} (agree : TablesAgree s) (st : s.session.state = .running ∨ s.session.state = .paused) :
    (∀ o, LeftOver s.sched.repeats o (s.list o) (leftOf s.sched.repeats o (s.list o)))
      ∧ (offsAtOnce s).results =
          { s.results with
            queue := s.results.queue
              ++ [0, 1, 2, 3].flatMap (fun o : Trunk =>
                if (s.engine o).offDue = true then
                  trunkEnds s.sched.repeats (s.list o) (leftOf s.sched.repeats o (s.list o)) .trunkOff s.session.deviceTime
                else []) }
      ∧ (offsAtOnce s).sched.repeats = s.sched.repeats.filter (fun x => !(s.engine x.copy.trunk).offDue) := by
  refine endedInTurn (f := State.offAtOnce) (p := fun o => (s.engine o).offDue) (J := BeforeOff s) agree
    (fun o => ⟨rfl, rfl, rfl⟩) (fun r o q ne before => ?_) (fun r o before => before.2.1)
    (fun r o before due distinct => ?_) (fun r o before undue => ?_)
  · obtain ⟨engine, list, session⟩ := before
    obtain ⟨engine', list'⟩ := offAtOnce_others r o q ne
    obtain ⟨⟨⟨_, session', _⟩, _⟩, _⟩ := offsOnly_offAtOnce r o
    exact ⟨engine'.trans engine, list'.trans list, session'.trans session⟩
  · obtain ⟨engine, _, session⟩ := before
    obtain ⟨_, processed⟩ := offAtOnce_due (by rw [engine]; exact due) (by rw [session]; exact st)
    rw [← session]
    exact trunkEnded_of_processed processed distinct
  · rw [offAtOnce_undue (by rw [before.1]; exact undue)]
    exact ⟨rfl, rfl⟩

/-- What the trunks that go OFF hand on, trunk 0 first (R102, R116; log 3). -/
theorem reloadModes_ends {s : State} {h : HeaderBytes} (st : s.session.state = .running ∨ s.session.state = .paused)
    (agrees : ∀ o : Trunk, OffAgrees (s.engine o)) (kept : HeldMapKept s) :
    let v := offsAtOnce (reloaded s h)
    let off := fun o : Trunk => goesOffAtOnce (s.engine o) (trunkRecord h o).mode
    ∃ left : Trunk → List RepeatEntry,
      (∀ o : Trunk, LeftOver s.sched.repeats o (s.list o) (left o))
      ∧ v.results =
          { s.results with
            queue := s.results.queue
              ++ [0, 1, 2, 3].flatMap (fun o : Trunk =>
                if off o = true then trunkEnds s.sched.repeats (s.list o) (left o) .trunkOff s.session.deviceTime
                else []) }
      ∧ v.sched.repeats = s.sched.repeats.filter (fun x => !off x.copy.trunk) := by
  obtain ⟨session, _, _, _, _, _, _, repeats, results, _⟩ := reloaded_rest s h
  have lists := reloaded_list (h := h) st
  have agree : TablesAgree (reloaded s h) := tablesAgree_sameReports (tablesAgree_of_heldMapKept kept) repeats lists
  obtain ⟨left, ended, table⟩ := offsAtOnce_ended agree (by rw [session]; exact st)
  rw [repeats] at left ended table
  rw [results] at ended
  intro v off
  refine ⟨fun o => leftOf s.sched.repeats o ((reloaded s h).list o), fun o => sameReports_leftOver (lists o) (left o),
    ended.trans ?_, table.trans ?_⟩
  · refine congrArg (fun q => ({ s.results with queue := s.results.queue ++ q } : ResultWriter)) ?_
    refine List.flatMap_congr fun o _ => ?_
    rw [reloaded_offDue st o (agrees o), sameReports_trunkEnds (lists o), session]
  · refine List.filter_congr fun x _ => ?_
    rw [reloaded_offDue st _ (agrees _)]

/-- Settles O37: a RELOAD by the old mode and the new one of each trunk, and what the trunks that go OFF hand on. -/
theorem reloadModes : Obligations.ReloadModes := by
  intro s a d u role op last h good st
  refine ⟨_, exec_reload_passed role op last good, fun o agrees => ?_, reloadModes_ends st⟩
  intro e g r same taken selects goesOff kept noneOwned
  refine ⟨reloadModes_fromOff st o agrees, fun old new => ?_, fun old new => ?_, fun old other => ?_⟩
  · obtain ⟨goes, stays⟩ := reloadModes_toOff st o old new
    refine ⟨fun now => ?_, fun not => ?_⟩
    · obtain ⟨⟨h1, h2, h3, h4, h5, h6, h7, h8, h9, h10, h11⟩, owned⟩ := goes now
      exact ⟨h1, h2, h3, h4, h5, h6, h7, h8, h9, h10, h11, owned⟩
    · exact (stays not).1
  · have on : e.state ≠ .off := fun k => old (agrees.1.2 k)
    obtain ⟨⟨mode, pendingOff, attempt, list, level, pulse, buffer, window⟩, listens, selected, acts, timing, pending, clock,
      armed⟩ := reloadModes_on st o old new
    obtain ⟨still, _⟩ := reloadModes_timing on timing pending clock armed
    refine ⟨mode, pendingOff, attempt, list, level, pulse, buffer, window, listens, selected, fun active not => ?_, still⟩
    obtain ⟨armed', state'⟩ := acts active not
    refine ⟨?_, ?_, fun unchanged => armed'.trans (armed_of_unchanged on unchanged)⟩
    · rw [armed']
      exact (reloadTiming_rest e r.timing).2
    · rw [state']
      exact (reloadTiming_mode e r.timing).2.1
  · have on : e.state ≠ .off := fun k => old (agrees.1.2 k)
    by_cases new : r.mode = .off
    · have not : ¬ goesOff := other.resolve_left fun k => k new
      obtain ⟨⟨_, _, armed, _⟩, timing, pending, clock⟩ := (reloadModes_toOff st o old new).2 not
      refine (reloadModes_timing on timing pending clock fun m hm => ?_).2
      exact absurd (armed.symm.trans hm) (Option.some_ne_none m).symm
    · obtain ⟨_, _, _, _, timing, pending, clock, armed⟩ := reloadModes_on st o old new
      exact (reloadModes_timing on timing pending clock armed).2

end Sys2Proof.Proofs

/-! SUPPORT. The order in which entries marked in STANDBY join the completion queue (R97; log 21). -/

namespace Sys2Proof.Proofs

open Sys2Proof.Machine Sys2Proof.Laws Sys2Proof.Safety

/-! ### Lists in an order -/

section

variable {α : Type} {before : α → α → Bool} {L : α → α → Prop}

/-- The order of two elements agrees with what a test says of them. -/
def Decides (before : α → α → Bool) (L : α → α → Prop) (x y : α) : Prop :=
  (before y x = true → L y x) ∧ (before y x = false → L x y)

theorem insertBefore_pairwise (trans : ∀ x y z, L x y → L y z → L x z) {x : α} {l : List α} (ordered : l.Pairwise L)
    (decides : ∀ y ∈ l, Decides before L x y) : (insertBefore before x l).Pairwise L := by
  induction l with
  | nil => exact List.pairwise_singleton _ _
  | cons y ys ih =>
    obtain ⟨ahead, rest⟩ := List.pairwise_cons.1 ordered
    obtain ⟨later, first⟩ := decides y List.mem_cons_self
    unfold insertBefore
    split
    · rename_i behind
      refine List.pairwise_cons.2 ⟨fun z hz => ?_, ih rest fun z hz => decides z (List.mem_cons_of_mem y hz)⟩
      rcases (mem_insertBefore _ _ _ _).1 hz with rfl | hz
      · exact later behind
      · exact ahead z hz
    · rename_i front
      have xy := first (Bool.eq_false_iff.2 front)
      refine List.pairwise_cons.2 ⟨fun z hz => ?_, ordered⟩
      rcases List.mem_cons.1 hz with rfl | hz
      · exact xy
      · exact trans x y z xy (ahead z hz)

theorem orderBy_pairwise (trans : ∀ x y z, L x y → L y z → L x z) {l : List α}
    (decides : l.Pairwise (Decides before L)) : (orderBy before l).Pairwise L := by
  induction l with
  | nil => exact List.Pairwise.nil
  | cons x xs ih =>
    obtain ⟨first, rest⟩ := List.pairwise_cons.1 decides
    exact insertBefore_pairwise trans (ih rest) fun y hy => first y ((mem_orderBy _ _ _).1 hy)

/-- Elements none of which comes before another keep their order. -/
theorem filter_orderBy {p : α → Bool} {l : List α} (ties : ∀ x ∈ l, ∀ y ∈ l, p x = true → p y = true → before y x = false) :
    (orderBy before l).filter p = l.filter p := by
  have insert : ∀ (x : α) (m : List α), (∀ y ∈ m, p x = true → p y = true → before y x = false) →
      (insertBefore before x m).filter p = (x :: m).filter p := by
    intro x m
    induction m with
    | nil => exact fun _ => rfl
    | cons y ys ih =>
      intro h
      unfold insertBefore
      split
      · rename_i behind
        have rest := ih fun z hz => h z (List.mem_cons_of_mem y hz)
        rw [List.filter_cons, rest]
        by_cases hx : p x = true
        · have hy : p y = false :=
            Bool.eq_false_iff.2 fun hy => Bool.false_ne_true ((h y List.mem_cons_self hx hy).symm.trans behind)
          rw [hy, List.filter_cons_of_pos hx, List.filter_cons_of_pos hx, List.filter_cons, hy]
          rfl
        · rw [List.filter_cons_of_neg hx, List.filter_cons_of_neg hx, List.filter_cons]
      · rfl
  induction l with
  | nil => rfl
  | cons x xs ih =>
    have rest := ih fun y hy z hz => ties y (List.mem_cons_of_mem x hy) z (List.mem_cons_of_mem x hz)
    unfold orderBy
    rw [insert x _ fun y hy => ties x List.mem_cons_self y (List.mem_cons_of_mem x ((mem_orderBy _ _ _).1 hy)),
      List.filter_cons, rest, List.filter_cons]

/-! ### Lists merged -/

theorem mem_mergeHeads (n : Nat) (xs ys : List α) (z : α) : z ∈ mergeHeads before n xs ys ↔ z ∈ xs ∨ z ∈ ys := by
  induction n generalizing xs ys with
  | zero => exact List.mem_append
  | succ n ih =>
    cases xs with
    | nil => simp [mergeHeads]
    | cons x xs =>
      cases ys with
      | nil => simp [mergeHeads]
      | cons y ys =>
        unfold mergeHeads
        split
        · rw [List.mem_cons, ih, List.mem_cons (l := ys)]
          tauto
        · rw [List.mem_cons, ih, List.mem_cons (l := xs)]
          tauto

theorem mergeHeads_pairwise (trans : ∀ x y z, L x y → L y z → L x z) (n : Nat) (xs ys : List α)
    (fuel : xs.length + ys.length ≤ n) (left : xs.Pairwise L) (right : ys.Pairwise L)
    (decides : ∀ x ∈ xs, ∀ y ∈ ys, Decides before L x y) : (mergeHeads before n xs ys).Pairwise L := by
  induction n generalizing xs ys with
  | zero =>
    obtain rfl : xs = [] := List.length_eq_zero_iff.1 (by omega)
    exact right
  | succ n ih =>
    cases xs with
    | nil => exact right
    | cons x xs =>
      cases ys with
      | nil => exact left
      | cons y ys =>
        obtain ⟨aheadX, restX⟩ := List.pairwise_cons.1 left
        obtain ⟨aheadY, restY⟩ := List.pairwise_cons.1 right
        obtain ⟨later, first⟩ := decides x List.mem_cons_self y List.mem_cons_self
        rw [List.length_cons, List.length_cons] at fuel
        unfold mergeHeads
        split
        · rename_i behind
          have yx := later behind
          refine List.pairwise_cons.2 ⟨fun z hz => ?_, ih _ _ (by rw [List.length_cons]; omega) left restY
            fun a ha b hb => decides a ha b (List.mem_cons_of_mem y hb)⟩
          rcases (mem_mergeHeads _ _ _ _).1 hz with hz | hz
          · rcases List.mem_cons.1 hz with rfl | hz
            · exact yx
            · exact trans y x z yx (aheadX z hz)
          · exact aheadY z hz
        · rename_i front
          have xy := first (Bool.eq_false_iff.2 front)
          refine List.pairwise_cons.2 ⟨fun z hz => ?_, ih _ _ (by rw [List.length_cons]; omega) restX right
            fun a ha b hb => decides a (List.mem_cons_of_mem x ha) b hb⟩
          rcases (mem_mergeHeads _ _ _ _).1 hz with hz | hz
          · exact aheadX z hz
          · rcases List.mem_cons.1 hz with rfl | hz
            · exact xy
            · exact trans x y z xy (aheadY z hz)

/-- Of two merged lists each keeps its own order. -/
theorem filter_mergeHeads {p : α → Bool} (n : Nat) (xs ys : List α)
    (apart : (∀ x ∈ xs, p x = false) ∨ (∀ y ∈ ys, p y = false)) :
    (mergeHeads before n xs ys).filter p = xs.filter p ++ ys.filter p := by
  induction n generalizing xs ys with
  | zero => exact List.filter_append _ _
  | succ n ih =>
    cases xs with
    | nil => rfl
    | cons x xs =>
      cases ys with
      | nil => exact (List.append_nil _).symm
      | cons y ys =>
        have restX := ih xs (y :: ys) (apart.imp_left fun h z hz => h z (List.mem_cons_of_mem x hz))
        have restY := ih (x :: xs) ys (apart.imp_right fun h z hz => h z (List.mem_cons_of_mem y hz))
        unfold mergeHeads
        split
        · rw [List.filter_cons, restY]
          rcases apart with none | none
          · rw [List.filter_eq_nil_iff.2 fun z hz => Bool.eq_false_iff.1 (none z hz), List.nil_append, List.nil_append,
              List.filter_cons]
          · rw [if_neg (Bool.eq_false_iff.1 (none y List.mem_cons_self)), List.filter_cons (x := y),
              if_neg (Bool.eq_false_iff.1 (none y List.mem_cons_self))]
        · rw [List.filter_cons, restX, List.filter_cons (x := x)]
          split
          · rfl
          · rfl

end

end Sys2Proof.Proofs

/-! SUPPORT. The marked entries stand in the order of R97 (O9, O8; log 21). -/

namespace Sys2Proof.Proofs

open Sys2Proof.Machine Sys2Proof.Laws Sys2Proof.Safety

/-- The age of a marked entry's moment of expiry. -/
def markAge (s : State) (m : Marked) : Nat := s.elapsed (m.2.stamp.getD s.now)

theorem markedEarlier_iff (s : State) (x y : Marked) : s.markedEarlier x y = true ↔ markAge s y < markAge s x :=
  decide_eq_true_iff

theorem markedBefore_iff (s : State) (x y : Marked) : s.markedBefore x y = true ↔
    markAge s y < markAge s x ∨ (markAge s y = markAge s x ∧ s.joinedSince y.2 < s.joinedSince x.2) := by
  unfold State.markedBefore
  rw [Bool.or_eq_true, Bool.and_eq_true, Bool.not_eq_true', Bool.eq_false_iff, ne_eq, markedEarlier_iff,
    markedEarlier_iff, decide_eq_true_iff]
  omega

/-- Stamps of one age are one stamp. -/
theorem stamp_of_markAge {s : State} {x y : Marked} (hx : x.2.stamp.isSome = true) (hy : y.2.stamp.isSome = true)
    (age : markAge s x = markAge s y) : x.2.stamp = y.2.stamp := by
  obtain ⟨v, hv⟩ := Option.isSome_iff_exists.1 hx
  obtain ⟨w, hw⟩ := Option.isSome_iff_exists.1 hy
  unfold markAge State.elapsed at age
  rw [hv, hw, Option.getD_some, Option.getD_some] at age
  rw [hv, hw, (sub_right_inj (a := s.now)).1 (BitVec.eq_of_toNat_eq age)]

/-! ### The marked entries of a trunk, and of all -/

/-- The marked entries of a trunk in list order. -/
def stampedOf (s : State) (t : Trunk) : List Marked :=
  ((s.list t).filter (fun e => e.stamp.isSome)).map (fun e => (t, e))

theorem mem_stampedOf (s : State) (t : Trunk) (m : Marked) :
    m ∈ stampedOf s t ↔ m.1 = t ∧ m.2 ∈ s.list t ∧ m.2.stamp.isSome = true := by
  unfold stampedOf
  rw [List.mem_map]
  constructor
  · rintro ⟨e, he, rfl⟩
    exact ⟨rfl, List.mem_filter.1 he⟩
  · rintro ⟨rfl, he⟩
    exact ⟨m.2, List.mem_filter.2 he, rfl⟩

theorem mem_markedOf (s : State) (t : Trunk) (m : Marked) :
    m ∈ s.markedOf t ↔ m.1 = t ∧ m.2 ∈ s.list t ∧ m.2.stamp.isSome = true :=
  (mem_orderBy _ _ _).trans (mem_stampedOf s t m)

/-- Two of the trunks' lists merged (R97). -/
def mergedMarks (s : State) (xs ys : List Marked) : List Marked :=
  mergeHeads s.markedBefore (xs.length + ys.length) xs ys

theorem marked_eq (s : State) : s.marked =
    mergedMarks s (mergedMarks s (s.markedOf 0) (s.markedOf 1)) (mergedMarks s (s.markedOf 2) (s.markedOf 3)) := rfl

theorem mem_marked (s : State) (m : Marked) : m ∈ s.marked ↔ m.2 ∈ s.list m.1 ∧ m.2.stamp.isSome = true := by
  rw [marked_eq]
  unfold mergedMarks
  rw [mem_mergeHeads, mem_mergeHeads, mem_mergeHeads, mem_markedOf, mem_markedOf, mem_markedOf, mem_markedOf]
  obtain ⟨t, e⟩ := m
  match t with
  | 0 => simp
  | 1 => simp
  | 2 => simp
  | 3 => simp

/-- An order of the marked entries that holds of each trunk's, and that the merging agrees with, holds of all. -/
theorem marked_pairwise {s : State} {L : Marked → Marked → Prop} (trans : ∀ x y z, L x y → L y z → L x z)
    (own : ∀ t, (stampedOf s t).Pairwise (Decides s.markedEarlier L)) (decides : ∀ x y, Decides s.markedBefore L x y) :
    s.marked.Pairwise L := by
  have trunk : ∀ t, (s.markedOf t).Pairwise L := fun t => orderBy_pairwise trans (own t)
  have merge : ∀ {xs ys : List Marked}, xs.Pairwise L → ys.Pairwise L → (mergedMarks s xs ys).Pairwise L := by
    intro xs ys hx hy
    exact mergeHeads_pairwise trans _ xs ys le_rfl hx hy fun x _ y _ => decides x y
  rw [marked_eq]
  exact merge (merge (trunk 0) (trunk 1)) (merge (trunk 2) (trunk 3))

/-- What picks marked entries of one trunk alone picks them from that trunk's. -/
theorem filter_marked {s : State} {p : Marked → Bool} {o : Trunk} (only : ∀ m, p m = true → m.1 = o) :
    s.marked.filter p = (s.markedOf o).filter p := by
  have other : ∀ t, t ≠ o → ∀ m ∈ s.markedOf t, p m = false := by
    intro t ne m hm
    refine Bool.eq_false_iff.2 fun picked => ne ?_
    exact ((mem_markedOf s t m).1 hm).1.symm.trans (only m picked)
  have none : ∀ t, t ≠ o → (s.markedOf t).filter p = [] := fun t ne =>
    List.filter_eq_nil_iff.2 fun m hm => Bool.eq_false_iff.1 (other t ne m hm)
  have pair : ∀ t u, t ≠ u →
      (mergedMarks s (s.markedOf t) (s.markedOf u)).filter p = (s.markedOf t).filter p ++ (s.markedOf u).filter p := by
    intro t u ne
    refine filter_mergeHeads _ _ _ ?_
    by_cases h : t = o
    · exact .inr (other u fun k => ne (h.trans k.symm))
    · exact .inl (other t h)
  have noneOf : ∀ t u, t ≠ o → u ≠ o → ∀ m ∈ mergedMarks s (s.markedOf t) (s.markedOf u), p m = false := by
    intro t u ht hu m hm
    rcases (mem_mergeHeads _ _ _ _).1 hm with h | h
    · exact other t ht m h
    · exact other u hu m h
  have apart : (∀ m ∈ mergedMarks s (s.markedOf 0) (s.markedOf 1), p m = false)
      ∨ (∀ m ∈ mergedMarks s (s.markedOf 2) (s.markedOf 3), p m = false) := by
    by_cases h : o = 0 ∨ o = 1
    · refine .inr (noneOf 2 3 ?_ ?_)
      · rcases h with h | h <;> rw [h] <;> decide
      · rcases h with h | h <;> rw [h] <;> decide
    · exact .inl (noneOf 0 1 (fun k => h (.inl k.symm)) (fun k => h (.inr k.symm)))
  rw [marked_eq]
  refine (filter_mergeHeads _ _ _ apart).trans ?_
  rw [pair 0 1 (by decide), pair 2 3 (by decide)]
  match o with
  | 0 => rw [none 1 (by decide), none 2 (by decide), none 3 (by decide), List.append_nil, List.append_nil, List.append_nil]
  | 1 => rw [none 0 (by decide), none 2 (by decide), none 3 (by decide), List.append_nil, List.append_nil, List.nil_append]
  | 2 => rw [none 0 (by decide), none 1 (by decide), none 3 (by decide), List.append_nil, List.nil_append, List.append_nil]
  | 3 => rw [none 0 (by decide), none 1 (by decide), none 2 (by decide), List.nil_append, List.nil_append, List.nil_append]

/-! ### The order of R97 -/

theorem marked_byAge (s : State) : s.marked.Pairwise (fun x y => markAge s y ≤ markAge s x) := by
  refine marked_pairwise (fun x y z h k => le_trans k h) (fun t => ?_) (fun x y => ⟨fun h => ?_, fun h => ?_⟩)
  · refine List.pairwise_of_forall fun x y => ⟨fun h => ?_, fun h => ?_⟩
    · exact Nat.le_of_lt ((markedEarlier_iff _ _ _).1 h)
    · exact Nat.le_of_not_lt fun k => Bool.false_ne_true (h.symm.trans ((markedEarlier_iff _ _ _).2 k))
  · rcases (markedBefore_iff _ _ _).1 h with k | k
    · exact Nat.le_of_lt k
    · exact Nat.le_of_eq k.1
  · refine Nat.le_of_not_lt fun k => Bool.false_ne_true (h.symm.trans ((markedBefore_iff _ _ _).2 (.inl k)))

/-- Older moments first, and of one moment those that joined earlier. -/
def MarkOrder (s : State) (x y : Marked) : Prop :=
  markAge s y < markAge s x ∨ (markAge s y = markAge s x ∧ s.joinedSince y.2 ≤ s.joinedSince x.2)

theorem marked_byJoining {s : State}
    (agree : ∀ o : Trunk, (s.list o).Pairwise (fun x y => x.stamp ≠ none → x.stamp = y.stamp →
      s.joinedSince y ≤ s.joinedSince x)) : s.marked.Pairwise (MarkOrder s) := by
  unfold MarkOrder
  refine marked_pairwise (fun x y z h k => by omega) (fun t => ?_) (fun x y => ⟨fun h => ?_, fun h => ?_⟩)
  · unfold stampedOf
    rw [List.pairwise_map]
    refine List.Pairwise.imp_of_mem (fun {x y} hx hy joined => ⟨fun h => ?_, fun h => ?_⟩) ((agree t).filter _)
    · exact .inl ((markedEarlier_iff _ _ _).1 h)
    · have notLess : ¬ markAge s (t, x) < markAge s (t, y) := fun k =>
        Bool.false_ne_true (h.symm.trans ((markedEarlier_iff _ _ _).2 k))
      by_cases same : markAge s (t, y) = markAge s (t, x)
      · have sx := (List.mem_filter.1 hx).2
        have stamp := stamp_of_markAge (x := (t, x)) (y := (t, y)) sx (List.mem_filter.1 hy).2 same.symm
        exact .inr ⟨same, joined (Option.isSome_iff_ne_none.1 sx) stamp⟩
      · exact .inl (by omega)
  · have := (markedBefore_iff _ _ _).1 h
    omega
  · have : ¬ _ := fun k => Bool.false_ne_true (h.symm.trans ((markedBefore_iff s y x).2 k))
    omega

/-- The marked entries stand in the order of R97, each once (log 21). -/
theorem marked_inOrder (s : State) : MarkedInOrder s s.marked := by
  refine ⟨fun m hm => ?_, fun o w => ?_, ?_, fun agree => ?_⟩
  · exact Option.isSome_iff_ne_none.1 ((mem_marked s m).1 hm).2
  · rw [filter_marked (o := o) fun m hm => beq_iff_eq.1 (Bool.and_eq_true_iff.1 hm).1]
    have ties : ∀ x ∈ stampedOf s o, ∀ y ∈ stampedOf s o, (x.1 == o && x.2.stamp == some w) = true →
        (y.1 == o && y.2.stamp == some w) = true → s.markedEarlier y x = false := by
      intro x _ y _ hx hy
      have sx := beq_iff_eq.1 (Bool.and_eq_true_iff.1 hx).2
      have sy := beq_iff_eq.1 (Bool.and_eq_true_iff.1 hy).2
      refine Bool.eq_false_iff.2 fun h => ?_
      rw [markedEarlier_iff, markAge, markAge, sx, sy] at h
      exact Nat.lt_irrefl _ h
    refine (congrArg (List.map Prod.snd) (filter_orderBy ties)).trans ?_
    unfold stampedOf
    rw [List.filter_map, List.map_map, List.filter_filter]
    refine (List.map_id _).trans (List.filter_congr fun x _ => ?_)
    rw [Function.comp_apply, beq_self_eq_true, Bool.true_and]
    cases x.stamp with
    | none => rfl
    | some v => exact Bool.and_true _
  · refine (marked_byAge s).imp fun {x y} h v w hv hw => ?_
    unfold markAge at h
    rw [hv, hw] at h
    exact h
  · refine (marked_byJoining agree).imp fun {x y} h stamp => ?_
    have age : markAge s y = markAge s x := by rw [markAge, markAge, stamp]
    rcases h with h | h
    · exact absurd age (Nat.ne_of_lt h)
    · exact h.2

end Sys2Proof.Proofs

/-! SUPPORT. Entries that finish in an order at RESUME and STOP: the tables and the lists (O8, O9; R86, R97, R104). -/

namespace Sys2Proof.Proofs

open Sys2Proof.Machine Sys2Proof.Laws Sys2Proof.Safety

/-! ### The tables -/

/-- An entry handed on as it ends at STOP or RESUME: a marked one EXPIRED with its stamp, any other STOPPED (R97, R104). -/
def handMark (now : Word) (u : State) (m : Marked) : State := u.handOn m.2 m.2.stopCode (m.2.stamp.getD now)

theorem handedOn_eq (s : State) (x : SessionState) (order : List Marked) : handedOn s x order =
    order.foldl (handMark s.session.deviceTime) { s with session := { s.session with state := x } } := rfl

/-- Two states have the same repeat table, results and unit in hand, in the same moment. -/
structure SameTables (b u : State) : Prop where
  repeats : u.sched.repeats = b.sched.repeats
  results : u.results = b.results
  moment : SameMoment b u
  port : u.port = b.port

theorem sameMoment_trans {r s v : State} (h : SameMoment r s) (k : SameMoment s v) : SameMoment r v :=
  ⟨k.1.trans h.1, k.2.trans h.2⟩

theorem sameMoment_symm {s v : State} (h : SameMoment s v) : SameMoment v s := ⟨h.1.symm, h.2.symm⟩

theorem handOn_session (s : State) (x : Entry) (c : ResultCode) (w : Word) : (s.handOn x c w).session = s.session := by
  obtain ⟨⟨_, session, _⟩, _⟩ := keeps_handOn s x c w
  exact session

theorem handOn_port (s : State) (x : Entry) (c : ResultCode) (w : Word) : (s.handOn x c w).port = s.port := by
  obtain ⟨⟨_, _, port, _⟩, _⟩ := keeps_handOn s x c w
  exact port

theorem sameTables_finishEntry {b u : State} (h : SameTables b u) (t : Trunk) (x : Entry) (c : ResultCode) (w : Word) :
    SameTables (b.handOn x c w) (u.finishEntry t x c w) := by
  obtain ⟨results, sched⟩ := finishEntry_tables (t := t) h.repeats h.results h.moment h.port x c w
  have sends := sendsOn_finishEntry u t x c w
  refine ⟨by rw [sched], results, ?_, ?_⟩
  · exact sameMoment_trans (sameMoment_trans (sameMoment_of_session (handOn_session b x c w).symm) h.moment)
      (sameMoment_of_session sends.session)
  · rw [sends.port, h.port, handOn_port]

theorem sameTables_select {b u : State} (h : SameTables b u) (t : Trunk) : SameTables b (u.select t) := by
  obtain ⟨results, sched⟩ := select_rest u t
  have sends := sendsOn_select u t
  exact ⟨by rw [sched]; exact h.repeats, results.trans h.results,
    sameMoment_trans h.moment (sameMoment_of_session sends.session), sends.port.trans h.port⟩

/-- Between two states the scheduler differs in its lists and its repeat table at most. -/
def TablesOnly (s v : State) : Prop :=
  v.sched = { s.sched with lists := v.sched.lists, repeats := v.sched.repeats }

theorem tablesOnly_trans {r s v : State} (h : TablesOnly r s) (k : TablesOnly s v) : TablesOnly r v := by
  unfold TablesOnly at h k ⊢
  rw [h] at k
  exact k

theorem tablesOnly_finishEntry (s : State) (t : Trunk) (x : Entry) (c : ResultCode) (w : Word) :
    TablesOnly s (s.finishEntry t x c w) := by
  obtain ⟨_, sched⟩ := finishEntry_tables (s := s) (r := s) (t := t) rfl rfl ⟨rfl, rfl⟩ rfl x c w
  unfold TablesOnly
  rw [sched]

theorem tablesOnly_select (s : State) (t : Trunk) : TablesOnly s (s.select t) := by
  unfold TablesOnly
  rw [(select_rest s t).2]

theorem finishMarked_tables {b u : State} (h : SameTables b u) (l : List Marked) (now : Word)
    (stamped : ∀ m ∈ l, m.2.stamp.isSome = true) :
    SameTables (l.foldl (handMark now) b) (finishMarked l u) ∧ TablesOnly u (finishMarked l u) := by
  induction l generalizing b u with
  | nil => exact ⟨h, rfl⟩
  | cons m ms ih =>
    have stamp := stamped m List.mem_cons_self
    have code : m.2.stopCode = .expired := if_pos stamp
    have kept : m.2.stamp.getD u.now = m.2.stamp.getD now := by
      obtain ⟨v, hv⟩ := Option.isSome_iff_exists.1 stamp
      rw [hv]
      rfl
    have step := sameTables_select (sameTables_finishEntry h m.1 m.2 .expired (m.2.stamp.getD u.now)) m.1
    obtain ⟨tables, only⟩ := ih step fun x hx => stamped x (List.mem_cons_of_mem m hx)
    refine ⟨?_, ?_⟩
    · rw [List.foldl_cons, handMark, code, ← kept]
      exact tables
    · exact tablesOnly_trans (tablesOnly_trans (tablesOnly_finishEntry u m.1 m.2 _ _) (tablesOnly_select _ m.1)) only

theorem finishAtStop_tables {b u : State} (h : SameTables b u) (l : List Marked) (now : Word)
    (time : u.session.deviceTime = now) :
    SameTables (l.foldl (handMark now) b) (finishAtStop l u) ∧ TablesOnly u (finishAtStop l u) := by
  induction l generalizing b u with
  | nil => exact ⟨h, rfl⟩
  | cons m ms ih =>
    have step := sameTables_finishEntry h m.1 m.2 m.2.stopCode (m.2.stamp.getD u.now)
    have session := (sendsOn_finishEntry u m.1 m.2 m.2.stopCode (m.2.stamp.getD u.now)).session
    obtain ⟨tables, only⟩ := ih step (by rw [session]; exact time)
    refine ⟨?_, tablesOnly_trans (tablesOnly_finishEntry u m.1 m.2 _ _) only⟩
    have same : m.2.stamp.getD u.now = m.2.stamp.getD now := congrArg m.2.stamp.getD time
    rw [List.foldl_cons, handMark, ← same]
    exact tables

/-! ### The lists -/

/-- A list holds the entries of another, but for their conditions. -/
def SameButConditions (l m : List Entry) : Prop := ∃ f : Entry → Entry, m = l.map f ∧ ∀ x, ∃ c, f x = { x with condition := c }

theorem sameButConditions_refl (l : List Entry) : SameButConditions l l :=
  ⟨id, (List.map_id _).symm, fun x => ⟨x.condition, rfl⟩⟩

theorem sameButConditions_trans {l m n : List Entry} (h : SameButConditions l m) (k : SameButConditions m n) :
    SameButConditions l n := by
  obtain ⟨f, rfl, hf⟩ := h
  obtain ⟨g, rfl, hg⟩ := k
  refine ⟨g ∘ f, List.map_map, fun x => ?_⟩
  obtain ⟨c, hc⟩ := hf x
  obtain ⟨d, hd⟩ := hg (f x)
  exact ⟨d, by rw [Function.comp_apply, hd, hc]⟩

theorem sameButConditions_filter {l m : List Entry} (h : SameButConditions l m) {p : Entry → Bool}
    (same : ∀ x c, p { x with condition := c } = p x) : SameButConditions (l.filter p) (m.filter p) := by
  obtain ⟨f, rfl, hf⟩ := h
  refine ⟨f, ?_, hf⟩
  rw [List.filter_map]
  refine congrArg (List.map f) (List.filter_congr fun x _ => ?_)
  obtain ⟨c, hc⟩ := hf x
  rw [Function.comp_apply, hc, same]

theorem sameButConditions_reports {l m : List Entry} (h : SameButConditions l m) : SameReports l m := by
  obtain ⟨f, rfl, hf⟩ := h
  refine ⟨f, rfl, fun x => ?_⟩
  obtain ⟨c, hc⟩ := hf x
  rw [hc]
  exact ⟨rfl, rfl, rfl, rfl, rfl⟩

theorem sameButConditions_select (s : State) (t o : Trunk) : SameButConditions (s.list o) ((s.select t).list o) := by
  by_cases own : o = t
  · subst own
    obtain ⟨f, list, keeps⟩ := select_entries s o
    refine ⟨f, list, fun x => ?_⟩
    obtain ⟨c, hc, _⟩ := keeps x
    exact ⟨c, hc⟩
  · rw [((sendsOn_select s t).others o own).2]
    exact sameButConditions_refl _

/-- What an order leaves of a trunk's list: the entries whose index is none of its own there. -/
def leftIn (l : List Marked) (o : Trunk) (x : Entry) : Bool := !(partOf l o).any (fun m => m.index == x.index)

theorem leftIn_cons (m : Marked) (l : List Marked) (o : Trunk) (x : Entry) :
    leftIn (m :: l) o x = (leftIn l o x && !(m.1 == o && m.2.index == x.index)) := by
  unfold leftIn partOf
  rw [List.filter_cons]
  split
  · rename_i own
    rw [List.map_cons, List.any_cons, own, Bool.true_and, Bool.not_or, Bool.and_comm]
  · rename_i other
    rw [Bool.eq_false_iff.2 other, Bool.false_and, Bool.not_false, Bool.and_true]

/-- Of an order that is followed at RESUME, each trunk loses its own part; the others may be armed or wait again. -/
theorem finishMarked_list (l : List Marked) (s : State) (o : Trunk) :
    SameButConditions ((s.list o).filter (leftIn l o)) ((finishMarked l s).list o) := by
  induction l generalizing s with
  | nil =>
    have all : (s.list o).filter (leftIn [] o) = s.list o := List.filter_eq_self.2 fun x _ => rfl
    rw [all]
    exact sameButConditions_refl _
  | cons m ms ih =>
    unfold finishMarked
    generalize m.2.stamp.getD s.now = w
    have finished : (s.finishEntry m.1 m.2 .expired w).list o
        = (s.list o).filter (fun x => !(m.1 == o && m.2.index == x.index)) := by
      rw [finishEntry_list]
      by_cases own : o = m.1
      · subst own
        rw [if_pos rfl]
        refine List.filter_congr fun x _ => ?_
        rw [beq_self_eq_true, Bool.true_and, bne, Bool.beq_comm]
      · rw [if_neg own]
        refine (List.filter_eq_self.2 fun x _ => ?_).symm
        rw [beq_eq_false_iff_ne.2 fun k => own k.symm]
        rfl
    have selected := sameButConditions_filter (sameButConditions_select (s.finishEntry m.1 m.2 .expired w) m.1 o)
      (p := leftIn ms o) fun x c => rfl
    rw [finished, List.filter_filter] at selected
    have whole : (s.list o).filter (leftIn (m :: ms) o)
        = (s.list o).filter (fun x => leftIn ms o x && !(m.1 == o && m.2.index == x.index)) :=
      List.filter_congr fun x _ => leftIn_cons m ms o x
    rw [whole]
    exact sameButConditions_trans selected (ih _)

end Sys2Proof.Proofs

/-! SUPPORT. RESUME from STANDBY (O9; R97, R102, R169, R171, R172; log 21, log 33). -/

namespace Sys2Proof.Proofs

open Sys2Proof.Machine Sys2Proof.Laws Sys2Proof.Safety

/-! ### The repetitions that an order leaves (R112, R114) -/

/-- Handing an entry on changes or ends the repetition of its own index alone. -/
theorem handOn_repeats (s : State) (x : Entry) (c : ResultCode) (w : Word) :
    ((s.handOn x c w).sched.repeats.map RepeatEntry.index).Sublist (s.sched.repeats.map RepeatEntry.index)
      ∧ ∀ r ∈ s.sched.repeats, (x.round = true → x.index ≠ r.index) → r ∈ (s.handOn x c w).sched.repeats := by
  have same : (s.sched.repeats.map RepeatEntry.index).Sublist (s.sched.repeats.map RepeatEntry.index)
      ∧ ∀ r ∈ s.sched.repeats, (x.round = true → x.index ≠ r.index) → r ∈ s.sched.repeats :=
    ⟨List.Sublist.refl _, fun _ h _ => h⟩
  unfold State.handOn
  by_cases round : x.round = true
  · rw [if_pos round]
    have ended : ∀ (r : RepeatEntry) (code : ResultCode) (g : Figures) (m : Word), r.index = x.index →
        ((s.endRepeat r code g m).sched.repeats.map RepeatEntry.index).Sublist (s.sched.repeats.map RepeatEntry.index)
          ∧ ∀ y ∈ s.sched.repeats, (x.round = true → x.index ≠ y.index) → y ∈ (s.endRepeat r code g m).sched.repeats := by
      intro r code g m index
      refine ⟨List.filter_sublist.map _, fun y hy other => List.mem_filter.2 ⟨hy, ?_⟩⟩
      rw [index]
      exact bne_iff_ne.2 fun k => other round k.symm
    unfold State.roundEnded
    cases found : s.findRepeat x.index with
    | none => exact same
    | some r =>
      have index := findRepeat_index found
      dsimp only
      split
      · split
        · exact ended _ _ _ _ index
        · split
          · exact ended _ _ _ _ index
          · refine ⟨?_, fun y hy other => List.mem_map.2 ⟨y, hy, if_neg fun k => other round k.symm⟩⟩
            show ((s.sched.repeats.map _).map RepeatEntry.index).Sublist _
            rw [List.map_map]
            refine (List.map_congr_left fun y _ => ?_).symm ▸ List.Sublist.refl _
            rw [Function.comp_apply]
            split
            · rename_i own
              exact index.trans own.symm
            · rfl
      · exact ended _ _ _ _ index
  · rw [if_neg round]
    exact same

theorem foldl_handMark_repeats (now : Word) (l : List Marked) (b : State) :
    ((l.foldl (handMark now) b).sched.repeats.map RepeatEntry.index).Sublist (b.sched.repeats.map RepeatEntry.index)
      ∧ ∀ r ∈ b.sched.repeats, (∀ m ∈ l, m.2.round = true → m.2.index ≠ r.index) →
          r ∈ (l.foldl (handMark now) b).sched.repeats := by
  induction l generalizing b with
  | nil => exact ⟨List.Sublist.refl _, fun _ h _ => h⟩
  | cons m ms ih =>
    obtain ⟨indices, kept⟩ := handOn_repeats b m.2 m.2.stopCode (m.2.stamp.getD now)
    obtain ⟨indices', kept'⟩ := ih (handMark now b m)
    refine ⟨indices'.trans indices, fun r hr other => ?_⟩
    exact kept' r (kept r hr (other m List.mem_cons_self)) fun x hx => other x (List.mem_cons_of_mem m hx)

theorem partOf_mem {order : List Marked} {o : Trunk} {x : Entry} : x ∈ partOf order o ↔ (o, x) ∈ order := by
  unfold partOf
  rw [List.mem_map]
  constructor
  · rintro ⟨m, hm, rfl⟩
    obtain ⟨mem, own⟩ := List.mem_filter.1 hm
    rw [← beq_iff_eq.1 own]
    exact mem
  · intro h
    exact ⟨(o, x), List.mem_filter.2 ⟨h, beq_self_eq_true o⟩, rfl⟩

theorem leftIn_iff {order : List Marked} {o : Trunk} {x : Entry} :
    leftIn order o x = true ↔ ∀ m, (o, m) ∈ order → m.index ≠ x.index := by
  unfold leftIn
  rw [Bool.not_eq_true', List.any_eq_false]
  constructor
  · intro h m hm index
    exact h m (partOf_mem.2 hm) (beq_iff_eq.2 index)
  · intro h m hm index
    exact h m (partOf_mem.1 hm) (beq_iff_eq.1 index)

/-- Where entries of an order have ended, tables and lists still agree. -/
theorem tablesAgree_after {s b u : State} {order : List Marked} {now : Word} (agree : TablesAgree s)
    (base : b.sched.repeats = s.sched.repeats) (members : ∀ m ∈ order, m.2 ∈ s.list m.1)
    (repeats : u.sched.repeats = (order.foldl (handMark now) b).sched.repeats)
    (lists : ∀ o, SameReports ((s.list o).filter (leftIn order o)) (u.list o)) : TablesAgree u := by
  obtain ⟨distinct, rounds⟩ := agree
  obtain ⟨indices, kept⟩ := foldl_handMark_repeats now order b
  rw [base] at indices kept
  refine ⟨fun o => ⟨?_, ?_⟩, fun o y hy round => ?_⟩
  · rw [sameReports_indices (lists o)]
    exact (distinct o).1.sublist (List.filter_sublist.map _)
  · rw [repeats]
    exact (distinct o).2.sublist indices
  · obtain ⟨f, list, same⟩ := lists o
    rw [list] at hy
    obtain ⟨x, hx, rfl⟩ := List.mem_map.1 hy
    obtain ⟨mem, left⟩ := List.mem_filter.1 hx
    obtain ⟨index, isRound, _⟩ := same x
    obtain ⟨r, hr, own, trunk⟩ := rounds o x mem (isRound.symm.trans round)
    refine ⟨r, repeats ▸ kept r hr fun m hm mround mindex => ?_, own.trans index.symm, trunk⟩
    obtain ⟨k, hk, kindex, ktrunk⟩ := rounds m.1 m.2 (members m hm) mround
    have same : k = r := List.inj_on_of_nodup_map (distinct o).2 hk hr (kindex.trans mindex)
    have trunks : m.1 = o := ktrunk.symm.trans (same ▸ trunk)
    exact leftIn_iff.1 left m.2 (trunks ▸ hm) (mindex.trans own)

/-! ### What the marked entries leave of the lists (R97, R171) -/

theorem leftIn_marked (s : State) (o : Trunk) (x : Entry) :
    leftIn s.marked o x = !(s.list o).any (fun e => e.index == x.index && e.stamp.isSome) := by
  rw [Bool.eq_iff_iff, leftIn_iff, Bool.not_eq_true', List.any_eq_false]
  constructor
  · intro h e he k
    obtain ⟨index, stamp⟩ := Bool.and_eq_true_iff.1 k
    exact h e ((mem_marked s (o, e)).2 ⟨he, stamp⟩) (beq_iff_eq.1 index)
  · intro h m hm index
    obtain ⟨mem, stamp⟩ := (mem_marked s (o, m)).1 hm
    exact h m mem (Bool.and_eq_true_iff.2 ⟨beq_iff_eq.2 index, stamp⟩)

theorem stamp_of_leftIn {s : State} {o : Trunk} {x : Entry} (mem : x ∈ s.list o) (left : leftIn s.marked o x = true) :
    x.stamp = none := by
  by_contra h
  exact leftIn_iff.1 left x ((mem_marked s (o, x)).2 ⟨mem, Option.isSome_iff_ne_none.2 h⟩) rfl

/-- Where indices are distinct, the marked entries leave the unmarked ones. -/
theorem filter_leftIn_marked {s : State} {o : Trunk} (distinct : ((s.list o).map Entry.index).Nodup) :
    (s.list o).filter (leftIn s.marked o) = unmarked s o := by
  refine List.filter_congr fun x hx => ?_
  cases stamp : x.stamp with
  | none =>
    refine leftIn_iff.2 fun m hm index => ?_
    obtain ⟨mem, stamped⟩ := (mem_marked s (o, m)).1 hm
    have same : m = x := List.inj_on_of_nodup_map distinct mem hx index
    rw [show ((o, m) : Marked).2 = m from rfl, same, stamp] at stamped
    cases stamped
  | some w =>
    refine Bool.eq_false_iff.2 fun left => ?_
    rw [stamp_of_leftIn hx left] at stamp
    cases stamp

/-! ### The trunk-off processings that STANDBY kept back (R102, R169; log 33) -/

theorem offIfOwed_sched (s : State) (t : Trunk) :
    (s.offIfOwed t).sched =
        { s.sched with
          lists := (s.offIfOwed t).sched.lists, repeats := (s.offIfOwed t).sched.repeats
          offDone := (s.offIfOwed t).sched.offDone, offOwed := s.sched.offOwed.set t false }
      ∧ ∀ x ∈ (s.offIfOwed t).sched.repeats, x ∈ s.sched.repeats := by
  rcases offIfOwed_cases s t with ⟨_, h⟩ | ⟨owed, h⟩
  · rw [h]
    unfold State.trunkOffProcessing
    have sched := finishTrunk_sched ((s.setOffOwed t false).setOffDone t true) t .trunkOff (s.setOffOwed t false).now
    refine ⟨?_, finishTrunk_repeats ((s.setOffOwed t false).setOffDone t true) t .trunkOff _ rfl⟩
    generalize ((s.setOffOwed t false).setOffDone t true).finishTrunk t .trunkOff (s.setOffOwed t false).now = v at sched
    rw [sched]
    rfl
  · rw [h]
    have clear : s.sched.offOwed.set t false = s.sched.offOwed := by
      rw [← owed]
      exact set_get _ t
    rw [clear]
    exact ⟨rfl, fun _ hx => hx⟩

theorem offsNoneNew_offIfOwed (s : State) (t : Trunk) : OffsNoneNew s (s.offIfOwed t) := by
  have sends := sendsOn_offIfOwed s t
  obtain ⟨sched, none⟩ := offIfOwed_sched s t
  refine ⟨⟨sends.elsewhere, sends.regs, sends.director, ?_⟩, none⟩
  rw [sched]

/-- A trunk's list, and whether its trunk-off processing is kept back. -/
def owedView (s : State) (o : Trunk) : List Entry × Bool := (s.list o, s.sched.offOwed.get o)

theorem owedView_offIfOwed (s : State) (t o : Trunk) (ne : o ≠ t) : owedView (s.offIfOwed t) o = owedView s o := by
  refine Prod.ext ((sendsOn_offIfOwed s t).others o ne).2 ?_
  show (s.offIfOwed t).sched.offOwed.get o = s.sched.offOwed.get o
  rw [(offIfOwed_sched s t).1]
  exact get_set_other _ _ _ _ ne

theorem owedTrunksOff_trunk (s : State) (o : Trunk) :
    ∃ q, OffsNoneNew s q ∧ owedView q o = owedView s o ∧ OffsNoneNew (q.offIfOwed o) s.owedTrunksOff
      ∧ owedView s.owedTrunksOff o = owedView (q.offIfOwed o) o :=
  inTurn_view (f := State.offIfOwed) (fun s => ⟨offsOnly_refl s, fun _ hx => hx⟩) offsNoneNew_trans offsNoneNew_offIfOwed
    owedView_offIfOwed s o

/-- What becomes of a trunk: nothing is owed after, and where it was, nothing of the trunk is left. -/
theorem owedTrunksOff_parts (s : State) (o : Trunk) :
    s.owedTrunksOff.sched.offOwed.get o = false
      ∧ (s.sched.offOwed.get o = false → s.owedTrunksOff.list o = s.list o)
      ∧ (s.sched.offOwed.get o = true →
          s.owedTrunksOff.list o = [] ∧ ∀ r ∈ s.owedTrunksOff.sched.repeats, r.copy.trunk ≠ o) := by
  obtain ⟨q, _, before, since, after⟩ := owedTrunksOff_trunk s o
  obtain ⟨list, owed⟩ := Prod.mk.inj before
  obtain ⟨list', owed'⟩ := Prod.mk.inj after
  refine ⟨?_, fun clear => ?_, fun due => ?_⟩
  · rw [owed', (offIfOwed_sched q o).1]
    exact get_set_same _ _ _
  · rcases offIfOwed_cases q o with ⟨k, _⟩ | ⟨_, h⟩
    · exact absurd ((owed.trans clear).symm.trans k) Bool.false_ne_true
    · rw [list', h, list]
  · rcases offIfOwed_cases q o with ⟨_, h⟩ | ⟨k, _⟩
    · obtain ⟨empty, none⟩ := trunkOffProcessing_empties (q.setOffOwed o false) o
      rw [← h] at empty none
      exact ⟨list'.trans empty, fun r hr => none r (since.2 r hr)⟩
    · exact absurd (k.symm.trans (owed.trans due)) Bool.false_ne_true

/-- What the trunk-off processings that STANDBY kept back hand on, trunk 0 first (log 3, log 33). -/
theorem owedTrunksOff_ended {s : State} (agree : TablesAgree s) :
    (∀ o, LeftOver s.sched.repeats o (s.list o) (leftOf s.sched.repeats o (s.list o)))
      ∧ s.owedTrunksOff.results =
          { s.results with
            queue := s.results.queue
              ++ [0, 1, 2, 3].flatMap (fun o : Trunk =>
                if s.sched.offOwed.get o = true then
                  trunkEnds s.sched.repeats (s.list o) (leftOf s.sched.repeats o (s.list o)) .trunkOff s.session.deviceTime
                else []) }
      ∧ s.owedTrunksOff.sched.repeats = s.sched.repeats.filter (fun x => !s.sched.offOwed.get x.copy.trunk) := by
  refine endedInTurn (f := State.offIfOwed) (p := fun o => s.sched.offOwed.get o)
    (J := fun o r => owedView r o = owedView s o ∧ r.session = s.session) agree (fun o => ⟨rfl, rfl⟩)
    (fun r o q ne before => ?_) (fun r o before => congrArg Prod.fst before.1)
    (fun r o before owed distinct => ?_) (fun r o before clear => ?_)
  · obtain ⟨view, session⟩ := before
    exact ⟨(owedView_offIfOwed r o q ne).trans view, (offsNoneNew_session (offsNoneNew_offIfOwed r o)).trans session⟩
  · obtain ⟨view, session⟩ := before
    rcases offIfOwed_cases r o with ⟨_, h⟩ | ⟨k, _⟩
    · rw [h, ← session]
      have ended : TrunkEnded .trunkOff _ (r.setOffOwed o false) _ o :=
        trunkEnded_of_processed (trunkProcessed_of (r.setOffOwed o false) o) distinct
      exact ended
    · exact absurd (k.symm.trans ((congrArg Prod.snd view).trans owed)) Bool.false_ne_true
  · obtain ⟨view, _⟩ := before
    rcases offIfOwed_cases r o with ⟨k, _⟩ | ⟨_, h⟩
    · exact absurd (clear.symm.trans ((congrArg Prod.snd view).symm.trans k)) Bool.false_ne_true
    · rw [h]
      exact ⟨rfl, rfl⟩

/-! ### RESUME from STANDBY (R171) -/

/-- The state in which the marked entries have ended at RESUME. -/
def marksEnded (s : State) : State := finishMarked s.marked (resumeBegun s)

theorem exec_resumeFromStandby {s : State} (idle : ¬ Busy s) (st : s.session.state = .standby) :
    exec .resume s = .next (marksEnded s).owedTrunksOff.oweResults := by
  have resume : s.acceptResume = s.resumeFromStandby := if_pos st
  rw [show Instr.resume = rowOf .resume from rfl,
    exec_accepted (c := .resume) idle (by simp [st, acceptingStates]) nofun _ rfl, resume, resumeFromStandby_eq]
  rfl

theorem marksEnded_tables (s : State) :
    SameTables (handedOn s .running s.marked) (marksEnded s) ∧ TablesOnly (resumeBegun s) (marksEnded s) := by
  have begun : SameTables ({ s with session := { s.session with state := .running } } : State) (resumeBegun s) :=
    ⟨rfl, rfl, ⟨rfl, rfl⟩, rfl⟩
  exact finishMarked_tables begun s.marked s.session.deviceTime fun m hm => ((mem_marked s m).1 hm).2

theorem marksEnded_list (s : State) (o : Trunk) :
    SameButConditions ((s.list o).filter (leftIn s.marked o)) ((marksEnded s).list o) :=
  finishMarked_list s.marked (resumeBegun s) o

theorem marksEnded_owed (s : State) (o : Trunk) : (marksEnded s).sched.offOwed.get o = s.sched.offOwed.get o := by
  have only := (marksEnded_tables s).2
  unfold TablesOnly at only
  rw [only]
  rfl

theorem marksEnded_unstamped {s : State} {o : Trunk} {y : Entry} (mem : y ∈ (marksEnded s).list o) : y.stamp = none := by
  obtain ⟨f, list, same⟩ := marksEnded_list s o
  rw [list] at mem
  obtain ⟨x, hx, rfl⟩ := List.mem_map.1 mem
  obtain ⟨c, hc⟩ := same x
  obtain ⟨own, left⟩ := List.mem_filter.1 hx
  have unstamped := stamp_of_leftIn own left
  rw [hc]
  exact unstamped

theorem marksEnded_indices (s : State) (o : Trunk) :
    ((marksEnded s).list o).map Entry.index =
      ((s.list o).map Entry.index).filter (fun i => !(s.list o).any (fun e => e.index == i && e.stamp.isSome)) := by
  rw [sameReports_indices (sameButConditions_reports (marksEnded_list s o)), List.filter_map]
  exact congrArg (List.map Entry.index) (List.filter_congr fun x _ => leftIn_marked s o x)

/-- Where no processing is owed, none is made. -/
theorem owedTrunksOff_none {s : State} (none : ∀ o, s.sched.offOwed.get o = false) : s.owedTrunksOff = s := by
  have stays : ∀ o, s.offIfOwed o = s := by
    intro o
    rcases offIfOwed_cases s o with ⟨k, _⟩ | ⟨_, h⟩
    · exact absurd ((none o).symm.trans k) Bool.false_ne_true
    · exact h
  unfold State.owedTrunksOff
  rw [stays 0, stays 1, stays 2, stays 3]

/-- What the marked entries and the trunks owed an end hand on at RESUME (R97, R102; log 33). -/
theorem resume_ends {s : State} (kept : HeldMapKept s) :
    let held := handedOn s .running s.marked
    let t := (marksEnded s).owedTrunksOff
    ∃ left : Trunk → List RepeatEntry,
      (∀ o : Trunk, LeftOver held.sched.repeats o (unmarked s o) (left o))
      ∧ t.results =
          { held.results with
            queue := held.results.queue
              ++ [0, 1, 2, 3].flatMap (fun o : Trunk =>
                if s.sched.offOwed.get o = true then
                  trunkEnds held.sched.repeats (unmarked s o) (left o) .trunkOff s.session.deviceTime
                else []) }
      ∧ t.sched.repeats = held.sched.repeats.filter (fun r => !s.sched.offOwed.get r.copy.trunk) := by
  obtain ⟨tables, _⟩ := marksEnded_tables s
  have agrees := tablesAgree_of_heldMapKept kept
  have lists : ∀ o, SameReports (unmarked s o) ((marksEnded s).list o) := fun o =>
    filter_leftIn_marked (agrees.1 o).1 ▸ sameButConditions_reports (marksEnded_list s o)
  have agree : TablesAgree (marksEnded s) :=
    tablesAgree_after agrees (b := { s with session := { s.session with state := .running } }) rfl
      (fun m hm => ((mem_marked s m).1 hm).1) tables.repeats fun o => sameButConditions_reports (marksEnded_list s o)
  have time : (marksEnded s).session.deviceTime = s.session.deviceTime := by
    rw [marksEnded, (sends_finishMarked s.marked (resumeBegun s)).session]
    rfl
  obtain ⟨left, results, repeats⟩ := owedTrunksOff_ended agree
  rw [tables.repeats] at left results repeats
  rw [tables.results] at results
  intro held t
  refine ⟨fun o => leftOf held.sched.repeats o ((marksEnded s).list o), fun o => sameReports_leftOver (lists o) (left o),
    results.trans ?_, repeats.trans ?_⟩
  · refine congrArg (fun q => ({ held.results with queue := held.results.queue ++ q } : ResultWriter)) ?_
    refine List.flatMap_congr fun o _ => ?_
    rw [marksEnded_owed, sameReports_trunkEnds (lists o), time]
  · refine List.filter_congr fun x _ => ?_
    rw [marksEnded_owed]

/-- Settles O9: the marked entries end in the order of R97, then the trunks that are owed it. -/
theorem resumeFromStandby : Obligations.ResumeFromStandby := by
  intro s idle st
  have ran := exec_resumeFromStandby idle st
  have sends : Sends (resumeBegun s) (marksEnded s).owedTrunksOff := sends_resumeFromStandby s
  have parts := owedTrunksOff_parts (marksEnded s)
  have ends := fun kept => resume_ends (s := s) kept
  have none : (∀ o, s.sched.offOwed.get o = false) → (marksEnded s).owedTrunksOff.results = (handedOn s .running s.marked).results
      ∧ (marksEnded s).owedTrunksOff.sched.repeats = (handedOn s .running s.marked).sched.repeats := by
    intro clear
    obtain ⟨tables, _⟩ := marksEnded_tables s
    rw [owedTrunksOff_none fun o => (marksEnded_owed s o).trans (clear o)]
    exact ⟨tables.results, tables.repeats⟩
  generalize (marksEnded s).owedTrunksOff = t at ran sends parts ends none
  have session := sends.session
  refine ⟨_, ran, ?_, sends.regs, sends.standby, fun o e mem => ?_, fun o clear => ?_,
    fun o owed => ?_, fun o => (parts o).1, ⟨s.marked, marked_inOrder s, none, ends⟩, sends.director,
    sends.sweeper, sends.elsewhere.1.1, sends.port, sends.header⟩
  · show ({ t.session with resumeOwed := _ } : Session) = _
    rw [session]
    rfl
  · obtain ⟨_, stays, empties⟩ := parts o
    rw [marksEnded_owed] at stays empties
    have mem' : e ∈ t.list o := mem
    cases owed : s.sched.offOwed.get o with
    | true =>
      rw [(empties owed).1] at mem'
      cases mem'
    | false =>
      rw [stays owed] at mem'
      exact marksEnded_unstamped mem'
  · have stays := (parts o).2.1 ((marksEnded_owed s o).trans clear)
    exact (congrArg (List.map Entry.index) stays).trans (marksEnded_indices s o)
  · exact (parts o).2.2 ((marksEnded_owed s o).trans owed)

end Sys2Proof.Proofs

/-! SUPPORT. Entries taken in groups: those ahead of each of some entries, then that one (O8; R97, R104; log 21). -/

namespace Sys2Proof.Proofs

open Sys2Proof.Machine Sys2Proof.Laws Sys2Proof.Safety

/-! ### Filters by what stands ahead -/

/-- What is picked by a test that holds of a front part of the list comes first of what a wider test picks. -/
theorem filter_front {α : Type} {p q : α → Bool} {l : List α} (front : l.Pairwise (fun x y => p y = true → p x = true))
    (wider : ∀ x, p x = true → q x = true) : l.filter p ++ l.filter (fun x => q x && !p x) = l.filter q := by
  induction l with
  | nil => rfl
  | cons x xs ih =>
    obtain ⟨ahead, rest⟩ := List.pairwise_cons.1 front
    by_cases hx : p x = true
    · have picked : (q x && !p x) = false := by rw [hx, Bool.not_true, Bool.and_false]
      rw [List.filter_cons_of_pos hx, List.filter_cons_of_pos (wider x hx),
        List.filter_cons_of_neg (p := fun x => q x && !p x) (Bool.eq_false_iff.1 picked), List.cons_append, ih rest]
    · have none : (x :: xs).filter p = [] := by
        refine List.filter_eq_nil_iff.2 fun y hy hpy => hx ?_
        rcases List.mem_cons.1 hy with rfl | hy
        · exact hpy
        · exact ahead y hy hpy
      rw [none, List.nil_append]
      refine List.filter_congr fun y hy => ?_
      have off : p y = false := Bool.eq_false_iff.2 (List.filter_eq_nil_iff.1 none y hy)
      rw [off, Bool.not_false, Bool.and_true]

/-- A list in its order stays as it is. -/
theorem orderBy_of_ordered {α : Type} {before : α → α → Bool} {l : List α}
    (ordered : l.Pairwise (fun x y => before y x = false)) : orderBy before l = l := by
  induction l with
  | nil => rfl
  | cons x xs ih =>
    obtain ⟨first, rest⟩ := List.pairwise_cons.1 ordered
    unfold orderBy
    rw [ih rest]
    cases xs with
    | nil => rfl
    | cons y ys =>
      unfold insertBefore
      rw [first y List.mem_cons_self, if_neg Bool.false_ne_true]

/-! ### Groups -/

section

variable {α : Type} (l : List α) (plain : α → Bool) (behind : α → α → Bool)

/-- One of some entries stands at or behind an entry. -/
def taken (acc : List α) (e : α) : Bool := acc.any (fun m => behind m e)

/-- For each of some entries the plain ones ahead of it that are ahead of none before, and then it itself. -/
def groups : List α → List α → List α
  | _, [] => []
  | acc, m :: ms =>
    (l.filter (fun e => plain e && (behind m e && !taken behind acc e)) ++ [m]) ++ groups (acc ++ [m]) ms

variable {l plain behind}

theorem taken_append (acc ms : List α) (e : α) :
    taken behind (acc ++ ms) e = (taken behind acc e || taken behind ms e) := List.any_append

theorem taken_front (front : ∀ m, l.Pairwise (fun x y => behind m y = true → behind m x = true)) (acc : List α) :
    l.Pairwise (fun x y => taken behind acc y = true → taken behind acc x = true) := by
  have all : l.Pairwise (fun x y => ∀ m, behind m y = true → behind m x = true) := by
    induction l with
    | nil => exact List.Pairwise.nil
    | cons z zs ih =>
      refine List.pairwise_cons.2 ⟨fun y hy m => (List.pairwise_cons.1 (front m)).1 y hy,
        ih fun m => (List.pairwise_cons.1 (front m)).2⟩
  refine all.imp fun {x y} h k => ?_
  obtain ⟨m, hm, ym⟩ := List.any_eq_true.1 k
  exact List.any_eq_true.2 ⟨m, hm, h m ym⟩

theorem groups_append (acc ms ns : List α) :
    groups l plain behind acc (ms ++ ns) = groups l plain behind acc ms ++ groups l plain behind (acc ++ ms) ns := by
  induction ms generalizing acc with
  | nil => rw [List.nil_append, List.append_nil]; rfl
  | cons m ms ih =>
    rw [List.cons_append, groups, groups, ih, List.append_assoc acc [m] ms, List.append_assoc _ _ (groups _ _ _ _ ns)]
    rfl

/-- The plain entries of the groups are the plain ones ahead of any of the entries, in list order. -/
theorem groups_plain (front : ∀ m, l.Pairwise (fun x y => behind m y = true → behind m x = true)) (acc ms : List α)
    (marked : ∀ m ∈ ms, plain m = false) :
    l.filter (fun e => plain e && taken behind acc e) ++ (groups l plain behind acc ms).filter plain
      = l.filter (fun e => plain e && taken behind (acc ++ ms) e) := by
  induction ms generalizing acc with
  | nil => rw [groups, List.filter_nil, List.append_nil, List.append_nil]
  | cons m ms ih =>
    have mark : plain m = false := marked m List.mem_cons_self
    have own : (l.filter (fun e => plain e && (behind m e && !taken behind acc e)) ++ [m]).filter plain
        = l.filter (fun e => (plain e && taken behind (acc ++ [m]) e) && !(plain e && taken behind acc e)) := by
      rw [List.filter_append, List.filter_cons_of_neg (Bool.eq_false_iff.1 mark), List.filter_nil, List.append_nil,
        List.filter_filter]
      refine List.filter_congr fun e _ => ?_
      rw [taken_append]
      have one : taken behind [m] e = behind m e := Bool.or_false _
      rw [one]
      cases plain e with
      | false => rfl
      | true =>
        cases taken behind acc e with
        | false => cases behind m e <;> rfl
        | true => cases behind m e <;> rfl
    have pfront : l.Pairwise (fun x y => taken behind acc y = true → taken behind acc x = true) := taken_front front acc
    have split : l.filter (fun e => plain e && taken behind acc e)
        ++ l.filter (fun e => (plain e && taken behind (acc ++ [m]) e) && !(plain e && taken behind acc e))
        = l.filter (fun e => plain e && taken behind (acc ++ [m]) e) := by
      have inner := filter_front (l := l.filter plain) (p := taken behind acc) (q := taken behind (acc ++ [m]))
        (pfront.filter _) fun x hx => by rw [taken_append, hx, Bool.true_or]
      simp only [List.filter_filter] at inner
      rw [← List.filter_congr fun e _ => Bool.and_comm (taken behind acc e) (plain e),
        ← List.filter_congr fun e _ => Bool.and_comm (taken behind (acc ++ [m]) e) (plain e), ← inner]
      refine congrArg (_ ++ ·) (List.filter_congr fun e _ => ?_)
      cases plain e with
      | false => simp
      | true => simp
    rw [groups, List.filter_append, own, ← List.append_assoc, split, ih (acc ++ [m]) fun x hx => marked x (List.mem_cons_of_mem m hx),
      List.append_assoc]
    rfl

/-- Where each group ends with all that stands between, the groups are the list as far as they reach. -/
theorem groups_whole (front : ∀ m, l.Pairwise (fun x y => behind m y = true → behind m x = true)) (acc ms : List α)
    (whole : ∀ a m b, acc ++ ms = a ++ m :: b →
      l.filter (fun e => plain e && (behind m e && !taken behind a e)) ++ [m]
        = l.filter (fun e => behind m e && !taken behind a e)) :
    l.filter (taken behind acc) ++ groups l plain behind acc ms = l.filter (taken behind (acc ++ ms)) := by
  induction ms generalizing acc with
  | nil => rw [groups, List.append_nil, List.append_nil]
  | cons m ms ih =>
    have next : acc ++ m :: ms = (acc ++ [m]) ++ ms := by rw [List.append_assoc]; rfl
    have split := filter_front (l := l) (p := taken behind acc) (q := taken behind (acc ++ [m])) (taken_front front acc)
      fun x hx => by rw [taken_append, hx, Bool.true_or]
    have own : l.filter (fun e => behind m e && !taken behind acc e)
        = l.filter (fun e => taken behind (acc ++ [m]) e && !taken behind acc e) := by
      refine List.filter_congr fun e _ => ?_
      rw [taken_append, show taken behind [m] e = behind m e from Bool.or_false _]
      cases taken behind acc e with
      | false => rfl
      | true => rw [Bool.not_true, Bool.and_false, Bool.and_false]
    rw [groups, whole acc m ms rfl, own, ← List.append_assoc, split, ih (acc ++ [m]) (next ▸ whole), next]

theorem mem_groups {acc ms : List α} {x : α} (h : x ∈ groups l plain behind acc ms) :
    x ∈ ms ∨ (plain x = true ∧ x ∈ l ∧ ∃ m ∈ ms, behind m x = true) := by
  induction ms generalizing acc with
  | nil => cases h
  | cons m ms ih =>
    rw [groups] at h
    rcases List.mem_append.1 h with h | h
    · rcases List.mem_append.1 h with h | h
      · obtain ⟨mem, test⟩ := List.mem_filter.1 h
        obtain ⟨isPlain, rest⟩ := Bool.and_eq_true_iff.1 test
        exact .inr ⟨isPlain, mem, m, List.mem_cons_self, (Bool.and_eq_true_iff.1 rest).1⟩
      · exact .inl (List.mem_singleton.1 h ▸ List.mem_cons_self)
    · rcases ih h with h | ⟨isPlain, mem, k, hk, test⟩
      · exact .inl (List.mem_cons_of_mem m h)
      · exact .inr ⟨isPlain, mem, k, List.mem_cons_of_mem m hk, test⟩

theorem subset_groups (acc ms : List α) : ∀ x ∈ ms, x ∈ groups l plain behind acc ms := by
  induction ms generalizing acc with
  | nil => exact fun _ h => h
  | cons m ms ih =>
    intro x hx
    rw [groups]
    rcases List.mem_cons.1 hx with rfl | hx
    · exact List.mem_append_left _ (List.mem_append_right _ List.mem_cons_self)
    · exact List.mem_append_right _ (ih _ x hx)

/-- A plain entry that one of the entries stands behind comes, in the groups, before each that stands behind it. -/
theorem groups_ahead {ms : List α} {x y : α} (mem : x ∈ l) (isPlain : plain x = true) (mark : y ∈ ms)
    (later : behind y x = true) :
    ∃ a b, groups l plain behind [] ms = a ++ b ∧ x ∈ a ∧ y ∈ b := by
  obtain ⟨m, found⟩ : ∃ m, ms.find? (fun m => behind m x) = some m :=
    Option.isSome_iff_exists.1 (List.find?_isSome.2 ⟨y, mark, later⟩)
  obtain ⟨first, pre, post, rfl, none⟩ := List.find?_eq_some_iff_append.1 found
  have untaken : taken behind pre x = false := by
    refine List.any_eq_false.2 fun k hk => ?_
    have off := none k hk
    rw [Bool.not_eq_true'] at off
    exact Bool.eq_false_iff.1 off
  have notBefore : y ∉ pre := fun h =>
    Bool.false_ne_true (untaken.symm.trans (List.any_eq_true.2 ⟨y, h, later⟩))
  refine ⟨groups l plain behind [] pre ++ l.filter (fun e => plain e && (behind m e && !taken behind pre e)),
    [m] ++ groups l plain behind (pre ++ [m]) post, ?_, ?_, ?_⟩
  · rw [groups_append, List.nil_append, groups, List.append_assoc, List.append_assoc]
  · refine List.mem_append_right _ (List.mem_filter.2 ⟨mem, ?_⟩)
    rw [isPlain, first, untaken]
    rfl
  · rcases List.mem_append.1 mark with h | h
    · exact absurd h notBefore
    · rcases List.mem_cons.1 h with rfl | h
      · exact List.mem_append_left _ List.mem_cons_self
      · exact List.mem_append_right _ (subset_groups _ _ y h)

/-- The groups, by which of the entries is the first behind. -/
theorem groups_eq [DecidableEq α] {acc ms : List α} (distinct : (acc ++ ms).Nodup) :
    ms.flatMap (fun m => l.filter (fun e => plain e && (acc ++ ms).find? (fun k => behind k e) == some m) ++ [m])
      = groups l plain behind acc ms := by
  have first : ∀ (pre : List α) (m : α) (post : List α) (e : α), (pre ++ m :: post).Nodup →
      ((pre ++ m :: post).find? (fun k => behind k e) == some m) = (behind m e && !taken behind pre e) := by
    intro pre m post e nodup
    have notPre : m ∉ pre := fun h => (List.nodup_append.1 nodup).2.2 m h m List.mem_cons_self rfl
    rw [Bool.eq_iff_iff, beq_iff_eq, Bool.and_eq_true, Bool.not_eq_true', List.find?_append]
    cases found : pre.find? (fun k => behind k e) with
    | some k =>
      have hk := List.mem_of_find?_eq_some found
      have on : taken behind pre e = true := List.any_eq_true.2 ⟨k, hk, List.find?_some (p := fun k => behind k e) found⟩
      rw [on]
      refine ⟨fun h => ?_, fun h => absurd h.2 (Bool.false_ne_true ∘ Eq.symm)⟩
      rw [Option.some_or, Option.some.injEq] at h
      exact absurd (h ▸ hk) notPre
    | none =>
      have off : taken behind pre e = false := List.any_eq_false.2 fun k hk => List.find?_eq_none.1 found k hk
      rw [off, Option.none_or, List.find?_cons]
      cases test : behind m e with
      | true => simp
      | false =>
        refine ⟨fun h => ?_, fun h => absurd h.1 Bool.false_ne_true⟩
        exact absurd (test.symm.trans (List.find?_some (p := fun k => behind k e) h)) Bool.false_ne_true
  induction ms generalizing acc with
  | nil => rfl
  | cons m ms ih =>
    have next : acc ++ m :: ms = (acc ++ [m]) ++ ms := by rw [List.append_assoc]; rfl
    rw [List.flatMap_cons, groups]
    refine congrArg₂ (· ++ ·) (congrArg (· ++ [m]) (List.filter_congr fun e _ => ?_)) ?_
    · rw [first acc m ms e distinct]
    · rw [next]
      exact ih (next ▸ distinct)

end

end Sys2Proof.Proofs

/-! SUPPORT. The order in which entries end at STOP from STANDBY (O8; R97, R104; log 21). -/

namespace Sys2Proof.Proofs

open Sys2Proof.Machine Sys2Proof.Laws Sys2Proof.Safety

/-- An entry is not marked in STANDBY. -/
def unstamped (e : Entry) : Bool := e.stamp.isNone

/-- The groups of a list: the unmarked entries ahead of each marked one, and then it (log 21). -/
abbrev markGroups (l : List Entry) : List Entry → List Entry → List Entry := groups l unstamped (standsBehind l)

/-! ### What stands behind what -/

section

variable {l : List Entry} (distinct : (l.map Entry.index).Nodup)

include distinct

theorem standsBehind_self {m : Entry} (mem : m ∈ l) : standsBehind l m m = true := by
  obtain ⟨a, b, rfl⟩ := List.append_of_mem mem
  exact (standsBehind_split distinct m).2.1

/-- An entry stands behind another exactly where it is that one or the other is ahead of it. -/
theorem aheadOf_of_standsBehind {m x : Entry} (hm : m ∈ l) (hx : x ∈ l) (ne : x ≠ m) (behind : standsBehind l m x = true) :
    AheadOf l x m := by
  obtain ⟨a, b, rfl⟩ := List.append_of_mem hm
  rcases List.mem_append.1 hx with h | h
  · obtain ⟨c, d, rfl⟩ := List.append_of_mem h
    exact ⟨c, d, b, by rw [List.append_assoc, List.cons_append]⟩
  · rcases List.mem_cons.1 h with rfl | h
    · exact absurd rfl ne
    · exact absurd ((standsBehind_split distinct x).2.2 h ▸ behind) Bool.false_ne_true

theorem standsBehind_of_aheadOf {m x : Entry} (ahead : AheadOf l x m) : standsBehind l m x = true := by
  obtain ⟨a, b, c, rfl⟩ := ahead
  have split : a ++ x :: (b ++ m :: c) = (a ++ x :: b) ++ m :: c := by rw [List.append_assoc, List.cons_append]
  rw [split] at distinct ⊢
  exact (standsBehind_split distinct x).1 (List.mem_append_right _ List.mem_cons_self)

/-- What stands behind an entry stands behind those ahead of it. -/
theorem standsBehind_front (m : Entry) :
    l.Pairwise (fun x y => standsBehind l m y = true → standsBehind l m x = true) := by
  by_cases mem : ∃ z ∈ l, z.index = m.index
  · obtain ⟨z, hz, index⟩ := mem
    have same : ∀ y, standsBehind l m y = standsBehind l z y := by
      intro y
      unfold standsBehind
      rw [index]
    simp only [same]
    obtain ⟨a, b, rfl⟩ := List.append_of_mem hz
    have all := fun e => standsBehind_split distinct e
    refine List.pairwise_append.2 ⟨?_, ?_, fun x hx y _ _ => (all x).1 hx⟩
    · exact List.Pairwise.imp_of_mem (fun {x y} hx _ _ _ => (all x).1 hx) (List.pairwise_of_forall fun _ _ => trivial)
    · refine List.pairwise_cons.2 ⟨fun y _ _ => (all z).2.1, ?_⟩
      refine List.Pairwise.imp_of_mem (fun {x y} _ hy _ k => ?_) (List.pairwise_of_forall fun _ _ => trivial)
      exact absurd (((all y).2.2 hy).symm.trans k) Bool.false_ne_true
  · refine List.pairwise_of_forall fun x y h => absurd ?_ mem
    obtain ⟨z, hz, index⟩ := List.any_eq_true.1 h
    exact ⟨z, (List.dropWhile_sublist _).subset hz, beq_iff_eq.1 index⟩

end

/-! ### The order, trunk by trunk -/

theorem partOf_append (a b : List Marked) (o : Trunk) : partOf (a ++ b) o = partOf a o ++ partOf b o := by
  unfold partOf
  rw [List.filter_append, List.map_append]

theorem partOf_cons (m : Marked) (l : List Marked) (o : Trunk) :
    partOf (m :: l) o = if m.1 = o then m.2 :: partOf l o else partOf l o := by
  unfold partOf
  rw [List.filter_cons]
  by_cases own : m.1 = o
  · rw [if_pos (beq_iff_eq.2 own), if_pos own]
    rfl
  · rw [if_neg fun k => own (beq_iff_eq.1 k), if_neg own]

/-- The first of an order on a trunk, found in the trunk's part. -/
theorem find_partOf (l : List Marked) (o : Trunk) (q : Entry → Bool) :
    l.find? (fun m => m.1 == o && q m.2) = ((partOf l o).find? q).map (fun e => (o, e)) := by
  induction l with
  | nil => rfl
  | cons m ms ih =>
    rw [partOf_cons, List.find?_cons]
    by_cases own : m.1 = o
    · rw [if_pos own, List.find?_cons, beq_iff_eq.2 own, Bool.true_and]
      cases q m.2 with
      | true => exact congrArg some (Prod.ext own rfl)
      | false => exact ih
    · rw [if_neg own, beq_eq_false_iff_ne.2 own, Bool.false_and]
      exact ih

theorem partOf_flatMap {f : Marked → List Marked} {g : Entry → List Entry} {o : Trunk}
    (own : ∀ m, m.1 = o → partOf (f m) o = g m.2) (other : ∀ m, m.1 ≠ o → partOf (f m) o = []) (l : List Marked) :
    partOf (l.flatMap f) o = (partOf l o).flatMap g := by
  induction l with
  | nil => rfl
  | cons m ms ih =>
    rw [List.flatMap_cons, partOf_append, ih, partOf_cons]
    by_cases h : m.1 = o
    · rw [if_pos h, List.flatMap_cons, own m h]
    · rw [if_neg h, other m h, List.nil_append]

theorem partOf_aheadOf (s : State) (m : Marked) (o : Trunk) :
    partOf (s.aheadOf m ++ [m]) o =
      if m.1 = o then
        (s.list o).filter (fun e => e.stamp.isNone
          && ((partOf s.marked o).find? (fun k => standsBehind (s.list o) k e)) == some m.2) ++ [m.2]
      else [] := by
  have ahead : ∀ l : List Entry, partOf (l.map (fun e => ((m.1, e) : Marked))) o = if m.1 = o then l else [] := by
    intro l
    induction l with
    | nil => split <;> rfl
    | cons x xs ih =>
      rw [List.map_cons, partOf_cons, ih]
      split
      · rfl
      · rfl
  rw [partOf_append, State.aheadOf, ahead, partOf_cons]
  by_cases own : m.1 = o
  · subst own
    rw [if_pos rfl, if_pos rfl, if_pos rfl]
    refine congrArg (· ++ [m.2]) (List.filter_congr fun e _ => congrArg (e.stamp.isNone && ·) ?_)
    unfold State.markedBehind
    rw [find_partOf s.marked m.1 (fun k => standsBehind (s.list m.1) k e), Bool.eq_iff_iff, beq_iff_eq, beq_iff_eq]
    cases (partOf s.marked m.1).find? (fun k => standsBehind (s.list m.1) k e) with
    | none => simp
    | some k =>
      rw [Option.map_some, Option.some.injEq, Option.some.injEq]
      exact ⟨fun h => congrArg Prod.snd h, fun h => Prod.ext rfl h⟩
  · rw [if_neg own, if_neg own, if_neg own]
    rfl

theorem partOf_marked (s : State) (o : Trunk) : partOf s.marked o = (s.markedOf o).map Prod.snd := by
  unfold partOf
  rw [filter_marked (o := o) fun m hm => beq_iff_eq.1 hm]
  refine congrArg (List.map Prod.snd) (List.filter_eq_self.2 fun m hm => beq_iff_eq.2 ?_)
  exact ((mem_markedOf s o m).1 hm).1

theorem mem_partOf_marked {s : State} {o : Trunk} {x : Entry} :
    x ∈ partOf s.marked o ↔ x ∈ s.list o ∧ x.stamp.isSome = true := by
  rw [partOf_mem, mem_marked]

theorem perm_insertBefore {α : Type} (f : α → α → Bool) (x : α) (l : List α) : (insertBefore f x l).Perm (x :: l) := by
  induction l with
  | nil => exact List.Perm.refl _
  | cons y ys ih =>
    unfold insertBefore
    split
    · exact (ih.cons y).trans (List.Perm.swap x y ys)
    · exact List.Perm.refl _

theorem perm_orderBy {α : Type} (f : α → α → Bool) (l : List α) : (orderBy f l).Perm l := by
  induction l with
  | nil => exact List.Perm.refl _
  | cons x xs ih => exact (perm_insertBefore f x _).trans (ih.cons x)

/-- The marked entries of a trunk are those of its list, each once. -/
theorem partOf_marked_nodup {s : State} {o : Trunk} (distinct : ((s.list o).map Entry.index).Nodup) :
    (partOf s.marked o).Nodup := by
  rw [partOf_marked]
  have perm : ((s.markedOf o).map Prod.snd).Perm ((stampedOf s o).map Prod.snd) := (perm_orderBy _ _).map _
  have same : (stampedOf s o).map Prod.snd = (s.list o).filter (fun e => e.stamp.isSome) := by
    unfold stampedOf
    rw [List.map_map]
    exact List.map_id _
  rw [perm.nodup_iff, same]
  exact (List.Nodup.of_map _ distinct).filter _

/-- The order at STOP from STANDBY, on a trunk. -/
theorem partOf_stopOrder {s : State} {o : Trunk} (distinct : ((s.list o).map Entry.index).Nodup) :
    partOf s.stopOrder o = markGroups (s.list o) [] (partOf s.marked o) := by
  unfold State.stopOrder
  rw [partOf_flatMap (g := fun m => (s.list o).filter (fun e => e.stamp.isNone
      && ((partOf s.marked o).find? (fun k => standsBehind (s.list o) k e)) == some m) ++ [m])]
  · exact groups_eq (l := s.list o) (plain := unstamped) (behind := standsBehind (s.list o)) (acc := [])
      (partOf_marked_nodup distinct)
  · intro m own
    rw [partOf_aheadOf, if_pos own]
  · intro m other
    rw [partOf_aheadOf, if_neg other]

/-- The marked entries of the order at STOP are the marked entries in their order. -/
theorem stopOrder_marked (s : State) : s.stopOrder.filter (fun m => m.2.stamp.isSome) = s.marked := by
  have each : ∀ l : List Marked, (∀ m ∈ l, m.2.stamp.isSome = true) →
      (l.flatMap (fun m => s.aheadOf m ++ [m])).filter (fun m => m.2.stamp.isSome) = l := by
    intro l
    induction l with
    | nil => exact fun _ => rfl
    | cons m ms ih =>
      intro stamped
      have ahead : (s.aheadOf m).filter (fun m => m.2.stamp.isSome) = [] := by
        refine List.filter_eq_nil_iff.2 fun x hx stamp => ?_
        obtain ⟨e, he, rfl⟩ := List.mem_map.1 hx
        have none := (Bool.and_eq_true_iff.1 (List.mem_filter.1 he).2).1
        rw [Option.isNone_iff_eq_none.1 none] at stamp
        cases stamp
      rw [List.flatMap_cons, List.filter_append, List.filter_append, ahead, List.nil_append,
        List.filter_cons_of_pos (p := fun m : Marked => m.2.stamp.isSome) (stamped m List.mem_cons_self), List.filter_nil,
        ih fun x hx => stamped x (List.mem_cons_of_mem m hx)]
      rfl
  exact each s.marked fun m hm => ((mem_marked s m).1 hm).2

/-! ### What the order leaves, and the whole list -/

/-- What the order at STOP leaves of a trunk: the unmarked entries with no marked one behind them. -/
theorem filter_leftIn_stopOrder {s : State} {o : Trunk} (distinct : ((s.list o).map Entry.index).Nodup) :
    (s.list o).filter (leftIn s.stopOrder o)
      = (s.list o).filter (fun e => unstamped e && !taken (standsBehind (s.list o)) (partOf s.marked o) e) := by
  refine List.filter_congr fun x hx => ?_
  have own : leftIn s.stopOrder o x = true ↔ x ∉ partOf s.stopOrder o := by
    rw [leftIn_iff]
    constructor
    · exact fun h mem => h x (partOf_mem.1 mem) rfl
    · intro h m hm index
      have mem := partOf_mem.2 hm
      have inList : m ∈ s.list o := by
        rw [partOf_stopOrder distinct] at mem
        rcases mem_groups mem with k | ⟨_, k, _⟩
        · exact (mem_partOf_marked.1 k).1
        · exact k
      exact h (List.inj_on_of_nodup_map distinct inList hx index ▸ mem)
  rw [Bool.eq_iff_iff, own, partOf_stopOrder distinct, Bool.and_eq_true, Bool.not_eq_true']
  constructor
  · intro h
    have plain : unstamped x = true := by
      refine Option.isNone_iff_eq_none.2 (by_contra fun k => h ?_)
      exact subset_groups _ _ x (mem_partOf_marked.2 ⟨hx, Option.isSome_iff_ne_none.2 k⟩)
    refine ⟨plain, Bool.eq_false_iff.2 fun k => h ?_⟩
    obtain ⟨y, hy, later⟩ := List.any_eq_true.1 k
    obtain ⟨a, b, eq, mem, _⟩ := groups_ahead (plain := unstamped) hx plain hy later
    rw [markGroups, eq]
    exact List.mem_append_left _ mem
  · rintro ⟨plain, untaken⟩ mem
    rcases mem_groups mem with k | ⟨_, _, y, hy, later⟩
    · have stamp := (mem_partOf_marked.1 k).2
      rw [Option.isNone_iff_eq_none.1 plain] at stamp
      cases stamp
    · exact Bool.false_ne_true (untaken.symm.trans (List.any_eq_true.2 ⟨y, hy, later⟩))

theorem partOf_stopOrder_unmarked {s : State} {o : Trunk} (distinct : ((s.list o).map Entry.index).Nodup) :
    (partOf s.stopOrder o).filter (fun x => x.stamp.isNone) ++ (s.list o).filter (leftIn s.stopOrder o) = unmarked s o := by
  have front := standsBehind_front distinct
  have plain := groups_plain (plain := unstamped) front [] (partOf s.marked o) fun m hm => by
    have stamp := (mem_partOf_marked.1 hm).2
    unfold unstamped
    rw [Option.isNone_eq_false_iff]
    exact stamp
  have none : (s.list o).filter (fun e => unstamped e && taken (standsBehind (s.list o)) [] e) = [] :=
    List.filter_eq_nil_iff.2 fun e _ k => Bool.false_ne_true (Bool.and_eq_true_iff.1 k).2
  rw [none, List.nil_append, List.nil_append] at plain
  rw [filter_leftIn_stopOrder distinct, partOf_stopOrder distinct]
  refine (congrArg (· ++ _) plain).trans ?_
  have split := filter_front (l := unmarked s o) (p := taken (standsBehind (s.list o)) (partOf s.marked o)) (q := fun _ => true)
    ((taken_front front _).filter _) fun _ _ => rfl
  unfold unmarked at split ⊢
  rw [List.filter_filter, List.filter_filter, List.filter_filter] at split
  refine Eq.trans ?_ (split.trans (List.filter_congr fun _ _ => Bool.true_and _))
  refine congrArg₂ (· ++ ·) (List.filter_congr fun e _ => Bool.and_comm _ _) (List.filter_congr fun e _ => ?_)
  rw [Bool.true_and, Bool.and_comm]
  rfl

/-- Where the marked entries stand in list order, each one's group ends with all that stands between. -/
theorem markGroups_between {l : List Entry} (distinct : (l.map Entry.index).Nodup) {a b : List Entry} {m : Entry}
    (marks : l.filter (fun e => e.stamp.isSome) = a ++ m :: b) :
    l.filter (fun e => unstamped e && (standsBehind l m e && !taken (standsBehind l) a e)) ++ [m]
      = l.filter (fun e => standsBehind l m e && !taken (standsBehind l) a e) := by
  obtain ⟨l1, l2, rfl, before, after⟩ := List.filter_eq_append_iff.1 marks
  obtain ⟨c, d, rfl, plainC, stamp, rest⟩ := List.filter_eq_cons_iff.1 after
  have split : l1 ++ (c ++ m :: d) = (l1 ++ c) ++ m :: d := (List.append_assoc _ _ _).symm
  rw [split] at distinct ⊢
  have all := fun e => standsBehind_split distinct e
  have isMark : unstamped m = false := by
    unfold unstamped
    rw [Option.isNone_eq_false_iff]
    exact stamp
  have free : taken (standsBehind ((l1 ++ c) ++ m :: d)) a m = false := by
    refine List.any_eq_false.2 fun k hk later => ?_
    rw [← before] at hk
    obtain ⟨mem, _⟩ := List.mem_filter.1 hk
    obtain ⟨x, y, rfl⟩ := List.append_of_mem mem
    have again : x ++ k :: y ++ c ++ m :: d = x ++ k :: (y ++ c ++ m :: d) := by simp
    rw [again] at distinct later
    have notBehind := (standsBehind_split distinct m).2.2 (List.mem_append_right _ List.mem_cons_self)
    exact Bool.false_ne_true (notBehind.symm.trans later)
  have front : (l1 ++ c).filter
        (fun e => unstamped e && (standsBehind ((l1 ++ c) ++ m :: d) m e && !taken (standsBehind ((l1 ++ c) ++ m :: d)) a e))
      = (l1 ++ c).filter
        (fun e => standsBehind ((l1 ++ c) ++ m :: d) m e && !taken (standsBehind ((l1 ++ c) ++ m :: d)) a e) := by
    refine List.filter_congr fun e he => ?_
    cases plain : unstamped e with
    | true => rw [Bool.true_and]
    | false =>
      have stamped : e.stamp.isSome = true := by
        unfold unstamped at plain
        rw [Option.isNone_eq_false_iff] at plain
        exact plain
      have mem : e ∈ a := by
        rcases List.mem_append.1 he with h | h
        · rw [← before]
          exact List.mem_filter.2 ⟨h, stamped⟩
        · exact absurd stamped (plainC e h)
      have on : taken (standsBehind ((l1 ++ c) ++ m :: d)) a e = true :=
        List.any_eq_true.2 ⟨e, mem, standsBehind_self distinct (List.mem_append_left _ he)⟩
      rw [on, Bool.not_true, Bool.and_false, Bool.and_false]
  have off : ∀ p : Entry → Bool, d.filter
      (fun e => p e && (standsBehind ((l1 ++ c) ++ m :: d) m e && !taken (standsBehind ((l1 ++ c) ++ m :: d)) a e)) = [] := by
    refine fun p => List.filter_eq_nil_iff.2 fun e he k => ?_
    have behind := (Bool.and_eq_true_iff.1 (Bool.and_eq_true_iff.1 k).2).1
    exact Bool.false_ne_true (((all e).2.2 he).symm.trans behind)
  have offAll := off fun _ => true
  simp only [Bool.true_and] at offAll
  rw [List.filter_append (l1 ++ c) (m :: d), List.filter_append (l1 ++ c) (m :: d), front, List.filter_cons, isMark, Bool.false_and, if_neg Bool.false_ne_true,
    off unstamped, List.append_nil, List.filter_cons, (all m).2.1, free, offAll]
  rfl

/-- Where the moments of the marked entries agree with list order, a trunk's whole list ends in list order. -/
theorem partOf_stopOrder_whole {s : State} {o : Trunk} (distinct : ((s.list o).map Entry.index).Nodup)
    (moments : MomentsInListOrder s o) :
    partOf s.stopOrder o ++ (s.list o).filter (leftIn s.stopOrder o) = s.list o := by
  have marks : partOf s.marked o = (s.list o).filter (fun e => e.stamp.isSome) := by
    rw [partOf_marked, State.markedOf, orderBy_of_ordered]
    · rw [List.map_map]
      exact List.map_id _
    · rw [List.pairwise_map]
      refine (moments.filter _).imp_of_mem fun {x y} hx hy h => ?_
      obtain ⟨v, hv⟩ := Option.isSome_iff_exists.1 (List.mem_filter.1 hx).2
      obtain ⟨w, hw⟩ := Option.isSome_iff_exists.1 (List.mem_filter.1 hy).2
      refine Bool.eq_false_iff.2 fun k => ?_
      rw [markedEarlier_iff, markAge, markAge, hv, hw] at k
      exact Nat.not_lt_of_le (h v w hv hw) k
  have front := standsBehind_front distinct
  have whole := groups_whole (plain := unstamped) front [] (partOf s.marked o) fun a m b eq =>
    markGroups_between distinct (marks.symm.trans eq)
  have none : (s.list o).filter (taken (standsBehind (s.list o)) []) = [] :=
    List.filter_eq_nil_iff.2 fun e _ k => Bool.false_ne_true k
  rw [none, List.nil_append, List.nil_append] at whole
  have split := filter_front (l := s.list o) (p := taken (standsBehind (s.list o)) (partOf s.marked o)) (q := fun _ => true)
    (taken_front front _) fun _ _ => rfl
  rw [filter_leftIn_stopOrder distinct, partOf_stopOrder distinct]
  refine (congrArg (· ++ _) whole).trans (Eq.trans (congrArg (_ ++ ·) (List.filter_congr fun e he => ?_)) (split.trans ?_))
  · rw [Bool.true_and]
    cases plain : unstamped e with
    | true => rw [Bool.true_and]
    | false =>
      have stamped : e.stamp.isSome = true := by
        unfold unstamped at plain
        rw [Option.isNone_eq_false_iff] at plain
        exact plain
      have on : taken (standsBehind (s.list o)) (partOf s.marked o) e = true :=
        List.any_eq_true.2 ⟨e, mem_partOf_marked.2 ⟨he, stamped⟩, standsBehind_self distinct he⟩
      rw [on]
      rfl
  · exact List.filter_eq_self.2 fun _ _ => rfl

/-- The order at STOP from STANDBY, and what it leaves (R97, R104; log 21). -/
theorem stopOrder_endsAtStop {s : State} (distinct : ∀ o, ((s.list o).map Entry.index).Nodup) :
    EndsAtStop s s.stopOrder (fun o => (s.list o).filter (leftIn s.stopOrder o)) := by
  refine ⟨?_, fun o => partOf_stopOrder_unmarked (distinct o), fun o x hx plain => ?_, fun o x y ahead plain stamp => ?_,
    fun o moments => partOf_stopOrder_whole (distinct o) moments⟩
  · rw [stopOrder_marked]
    exact marked_inOrder s
  · rw [partOf_stopOrder (distinct o)] at hx
    rcases mem_groups hx with h | ⟨_, mem, m, hm, later⟩
    · have stamped := (mem_partOf_marked.1 h).2
      rw [plain] at stamped
      cases stamped
    · obtain ⟨memM, stamped⟩ := mem_partOf_marked.1 hm
      have stampM := Option.isSome_iff_ne_none.1 stamped
      refine ⟨m, stampM, aheadOf_of_standsBehind (distinct o) memM mem (fun k => stampM (k ▸ plain)) later⟩
  · have later := standsBehind_of_aheadOf (distinct o) ahead
    have mems : x ∈ s.list o ∧ y ∈ s.list o := by
      obtain ⟨a, b, c, eq⟩ := ahead
      rw [eq]
      simp
    obtain ⟨a, b, eq, memX, memY⟩ := groups_ahead (plain := unstamped) mems.1 (Option.isNone_iff_eq_none.2 plain)
      (mem_partOf_marked.2 ⟨mems.2, Option.isSome_iff_ne_none.2 stamp⟩) later
    obtain ⟨a1, a2, rfl⟩ := List.append_of_mem memX
    obtain ⟨b1, b2, rfl⟩ := List.append_of_mem memY
    refine ⟨a1, a2 ++ b1, b2, ?_⟩
    rw [partOf_stopOrder (distinct o), markGroups, eq]
    simp

end Sys2Proof.Proofs

/-! SUPPORT. STOP accepted (O8; R79, R97, R104, R117, R136, R161; log 21, log 28, log 33). -/

namespace Sys2Proof.Proofs

open Sys2Proof.Machine Sys2Proof.Laws Sys2Proof.Safety

/-! ### Frames without a slot (R136) -/

/-- Each trunk's refused frames are counted. -/
theorem refuseFrames_refused (l : List QueuedFrame) (s : State) (o : Trunk) :
    ((refuseFrames l s).results.tallies.get o).refused
      = (s.results.tallies.get o).refused + BitVec.ofNat 32 (l.filter (fun q => q.trunk == o)).length := by
  induction l generalizing s with
  | nil => exact (BitVec.add_zero _).symm
  | cons q qs ih =>
    unfold refuseFrames
    rw [ih, List.filter_cons]
    by_cases own : q.trunk = o
    · subst own
      rw [if_pos (beq_self_eq_true q.trunk), List.length_cons, Nat.add_comm, BitVec.ofNat_add, ← BitVec.add_assoc]
      exact congrArg (· + _) (congrArg Tally.refused (get_set_same _ _ _))
    · rw [if_neg fun k => own (beq_iff_eq.1 k)]
      exact congrArg (· + _) (congrArg Tally.refused (get_set_other _ _ _ _ fun k => own k.symm))

theorem closeQueue_refused (s : State) (o : Trunk) :
    (s.closeQueue.results.tallies.get o).refused
      = (s.results.tallies.get o).refused
        + BitVec.ofNat 32 (s.director.queue.filter (fun q => q.slot.isNone && q.trunk == o)).length := by
  unfold State.closeQueue
  rw [refuseFrames_refused, List.filter_filter]
  refine congrArg (fun n => _ + BitVec.ofNat 32 (List.length n)) (List.filter_congr fun q _ => Bool.and_comm _ _)

/-! ### The STOP processing of the trunks in turn (R104, R117) -/

/-- In STOPPING, a trunk has its STOP processing now. -/
def stopsNow (s : State) (o : Trunk) : Bool := !s.inFlight o && !s.sched.stopDone.get o

theorem stopsNow_iff {s : State} {o : Trunk} :
    stopsNow s o = true ↔ s.inFlight o = false ∧ s.sched.stopDone.get o = false := by
  unfold stopsNow
  rw [Bool.and_eq_true, Bool.not_eq_true', Bool.not_eq_true']

theorem stopIfClear_stops {s : State} {t : Trunk} (st : s.session.state = .stopping) (stops : stopsNow s t = true) :
    s.stopIfClear t = (stopMarked s t).finishTrunk t .stopped s.session.deviceTime := by
  obtain ⟨clear, notYet⟩ := stopsNow_iff.1 stops
  exact stopIfClear_of st notYet clear

theorem stopIfClear_waits {s : State} {t : Trunk} (waits : stopsNow s t = false) : s.stopIfClear t = s := by
  refine if_neg fun h => ?_
  obtain ⟨_, notYet, clear⟩ := h
  exact Bool.false_ne_true (waits.symm.trans (stopsNow_iff.2 ⟨clear, notYet⟩))

/-- Nothing of the trunk is armed once its entries have ended. -/
theorem finishTrunk_armed (s : State) (t : Trunk) (c : ResultCode) (w : Word) :
    ((s.finishTrunk t c w).engine t).armed = none := by
  have eq := finishTrunk_eq s t c w
  dsimp only at eq
  have engines := handOnAll_engines c w (s.list t) ((s.withdraw t).setList t [])
  generalize handOnAll c w (s.list t) ((s.withdraw t).setList t []) = r at eq engines
  rw [eq, endRepeats_eq]
  show (r.engines.get t).armed = none
  rw [engines]
  exact withdraw_armed s t

/-- From `s` to `v` trunks have had their STOP processing: no repetition is new, and what is owed stays. -/
def StopsOnly (s v : State) : Prop :=
  v.session = s.session ∧ v.sched.offOwed = s.sched.offOwed ∧ ∀ x ∈ v.sched.repeats, x ∈ s.sched.repeats

theorem stopsOnly_refl (s : State) : StopsOnly s s := ⟨rfl, rfl, fun _ hx => hx⟩

theorem stopsOnly_trans (r s v : State) (h : StopsOnly r s) (k : StopsOnly s v) : StopsOnly r v := by
  obtain ⟨session, owed, none⟩ := h
  obtain ⟨session', owed', none'⟩ := k
  exact ⟨session'.trans session, owed'.trans owed, fun x hx => none x (none' x hx)⟩

/-- A trunk's list, whether it has had its STOP processing, and its engine. -/
def stopView (s : State) (o : Trunk) : List Entry × Bool × Engine := (s.list o, s.sched.stopDone.get o, s.engine o)

theorem stopIfClear_sched (s : State) (t : Trunk) :
    (s.stopIfClear t).sched.offOwed = s.sched.offOwed
      ∧ ∀ o, o ≠ t → (s.stopIfClear t).sched.stopDone.get o = s.sched.stopDone.get o := by
  unfold State.stopIfClear
  split
  · unfold State.stopProcessing
    rw [finishTrunk_sched]
    exact ⟨rfl, fun o ne => get_set_other _ _ _ _ ne⟩
  · exact ⟨rfl, fun _ _ => rfl⟩

theorem stopIfClear_only (s : State) (t : Trunk) : StopsOnly s (s.stopIfClear t) := by
  refine ⟨(sendsOn_stopIfClear s t).session, (stopIfClear_sched s t).1, ?_⟩
  unfold State.stopIfClear
  split
  · exact finishTrunk_repeats (stopMarked s t) t .stopped s.now rfl
  · exact fun _ hx => hx

theorem stopView_stopIfClear (s : State) (t o : Trunk) (ne : o ≠ t) : stopView (s.stopIfClear t) o = stopView s o := by
  obtain ⟨engine, list⟩ := (sendsOn_stopIfClear s t).others o ne
  exact Prod.ext list (Prod.ext ((stopIfClear_sched s t).2 o ne) engine)

theorem stopsNow_of_view {r s : State} {o : Trunk} (view : stopView r o = stopView s o) : stopsNow r o = stopsNow s o := by
  obtain ⟨list, rest⟩ := Prod.mk.inj view
  obtain ⟨done, _⟩ := Prod.mk.inj rest
  unfold stopsNow State.inFlight
  rw [list, done]

theorem stopClearTrunks_inTurn (s : State) : s.stopClearTrunks = inTurn State.stopIfClear s := rfl

/-- What becomes of a trunk: nothing of it is left if it has its STOP processing, else its list stays. -/
theorem stopClearTrunks_parts {s : State} (st : s.session.state = .stopping) (o : Trunk) :
    (stopsNow s o = false → s.stopClearTrunks.list o = s.list o)
      ∧ (stopsNow s o = true →
          s.stopClearTrunks.list o = [] ∧ (s.stopClearTrunks.engine o).armed = none
            ∧ s.stopClearTrunks.sched.stopDone.get o = true ∧ ∀ r ∈ s.stopClearTrunks.sched.repeats, r.copy.trunk ≠ o) := by
  obtain ⟨q, only, before, since, after⟩ :=
    inTurn_view (R := StopsOnly) (view := stopView) stopsOnly_refl stopsOnly_trans stopIfClear_only stopView_stopIfClear s o
  rw [stopClearTrunks_inTurn]
  obtain ⟨_, _, none⟩ := since
  have now := stopsNow_of_view before
  obtain ⟨list, rest⟩ := Prod.mk.inj after
  obtain ⟨done, engine⟩ := Prod.mk.inj rest
  refine ⟨fun waits => ?_, fun stops => ?_⟩
  · rw [list, stopIfClear_waits (now.trans waits)]
    exact congrArg Prod.fst before
  · have ran := stopIfClear_stops (only.1 ▸ st) (now.trans stops)
    obtain ⟨empty, left⟩ := finishTrunk_empties (stopMarked q o) o .stopped q.session.deviceTime
    have unarmed := finishTrunk_armed (stopMarked q o) o .stopped q.session.deviceTime
    have sched := finishTrunk_sched (stopMarked q o) o .stopped q.session.deviceTime
    rw [← ran] at empty left unarmed sched
    refine ⟨list.trans empty, engine ▸ unarmed, ?_, fun r hr => left r (none r hr)⟩
    rw [done, sched]
    exact get_set_same _ _ _

theorem stopClearTrunks_only (s : State) : StopsOnly s s.stopClearTrunks := by
  obtain ⟨q, before, _, since, _⟩ :=
    inTurn_view (R := StopsOnly) (view := stopView) stopsOnly_refl stopsOnly_trans stopIfClear_only stopView_stopIfClear s 0
  exact stopsOnly_trans _ _ _ (stopsOnly_trans _ _ _ before (stopIfClear_only q 0)) since

/-- What the trunks that have their STOP processing hand on, trunk 0 first. -/
theorem stopClearTrunks_ended {s : State} (st : s.session.state = .stopping) (agree : TablesAgree s) :
    (∀ o, LeftOver s.sched.repeats o (s.list o) (leftOf s.sched.repeats o (s.list o)))
      ∧ s.stopClearTrunks.results.queue = s.results.queue
          ++ [0, 1, 2, 3].flatMap (fun o : Trunk =>
            if stopsNow s o = true then
              trunkEnds s.sched.repeats (s.list o) (leftOf s.sched.repeats o (s.list o)) .stopped s.session.deviceTime
            else []) := by
  obtain ⟨left, results, _⟩ := endedInTurn (f := State.stopIfClear) (p := stopsNow s) (code := .stopped)
    (J := fun o r => stopView r o = stopView s o ∧ r.session = s.session) agree (fun o => ⟨rfl, rfl⟩)
    (fun r o q ne before => ⟨(stopView_stopIfClear r o q ne).trans before.1, (stopIfClear_only r o).1.trans before.2⟩)
    (fun r o before => congrArg Prod.fst before.1) (fun r o before stops distinct => by
      obtain ⟨view, session⟩ := before
      have ran := stopIfClear_stops (session ▸ st) ((stopsNow_of_view view).trans stops)
      rw [ran, session]
      have ended : TrunkEnded .stopped _ (stopMarked r o) _ o :=
        trunkEnded_finishTrunk (s := stopMarked r o) (t := o) (c := .stopped) rfl s.session.deviceTime distinct
      exact ended) fun r o before waits => by
      rw [stopIfClear_waits ((stopsNow_of_view before.1).trans waits)]
      exact ⟨rfl, rfl⟩
  refine ⟨left, ?_⟩
  rw [stopClearTrunks_inTurn, results]

/-! ### STOP (R161) -/

/-- The state in which the trunks have their STOP processing: the queue is closed, and from STANDBY the entries that the
marks put in order have ended. -/
def stopReady (s : State) : State :=
  if s.session.state = .standby then finishAtStop s.stopOrder (stopBegun s).closeQueue else (stopBegun s).closeQueue

theorem exec_stop {s : State} (idle : ¬ Busy s)
    (st : s.session.state = .running ∨ s.session.state = .paused ∨ s.session.state = .standby) :
    exec .stop s = .next (stopReady s).stopClearTrunks := by
  rw [show Instr.stop = rowOf .stop from rfl,
    exec_accepted (c := .stop) idle (by simpa [acceptingStates] using st) nofun _ rfl, acceptStop_eq]
  rfl

theorem sends_stopReady (s : State) : Sends (stopBegun s).closeQueue (stopReady s) := by
  unfold stopReady
  split
  · exact sends_finishAtStop _ _
  · exact sends_refl _

theorem stopReady_session (s : State) :
    (stopReady s).session = { s.session with state := .stopping, inProgress := some .stop } := by
  rw [(sends_stopReady s).session, closeQueue_eq]
  rfl

/-- A state with other tallies. -/
def talliesAs (x : Four Tally) (s : State) : State := s.setResults { s.results with tallies := x }

theorem handMark_talliesAs (now : Word) (x : Four Tally) (u : State) (m : Marked) :
    handMark now (talliesAs x u) m = talliesAs x (handMark now u m) := by
  have found : ∀ i, (talliesAs x u).findRepeat i = u.findRepeat i := fun _ => rfl
  unfold handMark State.handOn State.roundEnded
  rw [found]
  generalize u.findRepeat m.2.index = r
  by_cases round : m.2.round = true
  · rw [if_pos round, if_pos round]
    cases r with
    | none => rfl
    | some r =>
      dsimp only
      have stopping : (talliesAs x u).session.state = u.session.state := rfl
      rw [stopping]
      repeat' split
      all_goals rfl
  · rw [if_neg round, if_neg round]
    rfl

theorem foldl_handMark_talliesAs (now : Word) (x : Four Tally) (l : List Marked) (u : State) :
    l.foldl (handMark now) (talliesAs x u) = talliesAs x (l.foldl (handMark now) u) := by
  induction l generalizing u with
  | nil => rfl
  | cons m ms ih => rw [List.foldl_cons, List.foldl_cons, handMark_talliesAs, ih]

/-- The closed queue's tables are those before STOP, but for the tallies. -/
theorem closed_tables (s : State) :
    SameTables (talliesAs (stopBegun s).closeQueue.results.tallies { s with session := { s.session with state := .stopping } })
      (stopBegun s).closeQueue := by
  have closed := closeQueue_eq (stopBegun s)
  generalize (stopBegun s).closeQueue = c at closed
  generalize c.results.tallies = x at closed
  rw [closed]
  exact ⟨rfl, rfl, ⟨rfl, rfl⟩, rfl⟩

theorem stopReady_tables {s : State} (st : s.session.state = .standby) :
    (stopReady s).sched.repeats = (handedOn s .stopping s.stopOrder).sched.repeats
      ∧ (stopReady s).results.queue = (handedOn s .stopping s.stopOrder).results.queue := by
  have time : (stopBegun s).closeQueue.session.deviceTime = s.session.deviceTime := by
    rw [closeQueue_eq]
    rfl
  obtain ⟨tables, _⟩ := finishAtStop_tables (closed_tables s) s.stopOrder s.session.deviceTime time
  obtain ⟨repeats, results, _⟩ := tables
  rw [foldl_handMark_talliesAs] at repeats results
  rw [handedOn_eq]
  unfold stopReady
  rw [if_pos st]
  generalize s.stopOrder.foldl (handMark s.session.deviceTime) _ = held at repeats results ⊢
  generalize finishAtStop s.stopOrder (stopBegun s).closeQueue = v at repeats results ⊢
  refine ⟨repeats, ?_⟩
  rw [results]
  rfl

theorem stopReady_only (s : State) : TablesOnly (stopBegun s).closeQueue (stopReady s) := by
  unfold stopReady
  split
  · exact (finishAtStop_tables (closed_tables s) s.stopOrder _ rfl).2
  · rfl

theorem stopReady_marks (s : State) (o : Trunk) :
    (stopReady s).sched.stopDone.get o = s.sched.stopDone.get o ∧ (stopReady s).sched.offOwed.get o = false := by
  have only := stopReady_only s
  unfold TablesOnly at only
  rw [only, closeQueue_eq]
  exact ⟨rfl, get_all false o⟩

theorem closed_list (s : State) (o : Trunk) : (stopBegun s).closeQueue.list o = s.list o := by
  rw [closeQueue_eq]
  rfl

theorem stopReady_list {s : State} (st : s.session.state = .standby) (o : Trunk) :
    (stopReady s).list o = (s.list o).filter (leftIn s.stopOrder o) := by
  unfold stopReady
  rw [if_pos st, finishAtStop_list, closed_list]
  rfl

theorem stopReady_other {s : State} (st : s.session.state ≠ .standby) :
    (∀ o, (stopReady s).list o = s.list o) ∧ (stopReady s).sched.repeats = s.sched.repeats
      ∧ (stopReady s).results.queue = s.results.queue := by
  unfold stopReady
  rw [if_neg st]
  refine ⟨closed_list s, ?_, ?_⟩
  · rw [closeQueue_eq]
    rfl
  · rw [closeQueue_eq]
    rfl

/-- The entries that the marks put in order at STOP are of the lists. -/
theorem mem_of_stopOrder {s : State} {m : Marked} (h : m ∈ s.stopOrder) : m.2 ∈ s.list m.1 := by
  obtain ⟨k, hk, mem⟩ := List.mem_flatMap.1 h
  rcases List.mem_append.1 mem with ahead | own
  · obtain ⟨e, he, rfl⟩ := List.mem_map.1 ahead
    exact (List.mem_filter.1 he).1
  · rw [List.mem_singleton.1 own]
    exact ((mem_marked s k).1 hk).1

theorem stopReady_sublist (s : State) (o : Trunk) : ((stopReady s).list o).Sublist (s.list o) := by
  by_cases st : s.session.state = .standby
  · rw [stopReady_list st]
    exact List.filter_sublist
  · rw [(stopReady_other st).1]

theorem stopReady_clear {s : State} {o : Trunk} (clear : s.inFlight o = false) : (stopReady s).inFlight o = false := by
  unfold State.inFlight at clear ⊢
  rw [List.any_eq_false] at clear ⊢
  exact fun x hx => clear x ((stopReady_sublist s o).subset hx)

theorem stopsNow_stopReady {s : State} (st : s.session.state ≠ .standby) (o : Trunk) :
    stopsNow (stopReady s) o = stopsNow s o := by
  unfold stopsNow State.inFlight
  rw [(stopReady_other st).1, (stopReady_marks s o).1]

/-- What STOP hands on in RUNNING and PAUSED (R104, R117). -/
theorem stop_ends {s : State} (kept : HeldMapKept s) (st : s.session.state ≠ .standby) :
    ∃ left : Trunk → List RepeatEntry,
      (∀ o : Trunk, LeftOver s.sched.repeats o (s.list o) (left o))
      ∧ (stopReady s).stopClearTrunks.results.queue = s.results.queue
          ++ [0, 1, 2, 3].flatMap (fun o : Trunk =>
            if s.inFlight o = false ∧ s.sched.stopDone.get o = false then
              trunkEnds s.sched.repeats (s.list o) (left o) .stopped s.session.deviceTime
            else []) := by
  obtain ⟨lists, repeats, queue⟩ := stopReady_other st
  have agree : TablesAgree (stopReady s) :=
    tablesAgree_sameReports (tablesAgree_of_heldMapKept kept) repeats fun o => by
      rw [lists]
      exact sameButConditions_reports (sameButConditions_refl _)
  obtain ⟨left, ended⟩ := stopClearTrunks_ended (by rw [stopReady_session]) agree
  rw [repeats] at left ended
  refine ⟨fun o => leftOf s.sched.repeats o ((stopReady s).list o), fun o => ?_, ?_⟩
  · exact lists o ▸ left o
  · rw [ended, queue]
    refine congrArg (s.results.queue ++ ·) (List.flatMap_congr fun o _ => ?_)
    rw [stopsNow_stopReady st, lists, stopReady_session]
    dsimp only
    rw [lists]
    exact if_congr stopsNow_iff rfl rfl

/-- What STOP hands on in STANDBY (R97, R104, R117; log 21). -/
theorem stop_ends_standby {s : State} (kept : HeldMapKept s) (st : s.session.state = .standby)
    (clear : ∀ o : Trunk, s.inFlight o = false ∧ s.sched.stopDone.get o = false) :
    ∃ (order : List (Trunk × Entry)) (rest : Trunk → List Entry) (left : Trunk → List RepeatEntry),
      let held := handedOn s .stopping order
      EndsAtStop s order rest
      ∧ (∀ o : Trunk, LeftOver held.sched.repeats o (rest o) (left o))
      ∧ (stopReady s).stopClearTrunks.results.queue = held.results.queue
          ++ [0, 1, 2, 3].flatMap (fun o : Trunk =>
            trunkEnds held.sched.repeats (rest o) (left o) .stopped s.session.deviceTime) := by
  have agrees := tablesAgree_of_heldMapKept kept
  have lists := fun o => stopReady_list st o
  obtain ⟨repeats, queue⟩ := stopReady_tables st
  have agree : TablesAgree (stopReady s) :=
    tablesAgree_after agrees (b := { s with session := { s.session with state := .stopping } }) rfl
      (fun m hm => mem_of_stopOrder hm) repeats fun o => by
        rw [lists]
        exact sameButConditions_reports (sameButConditions_refl _)
  obtain ⟨left, ended⟩ := stopClearTrunks_ended (by rw [stopReady_session]) agree
  rw [repeats] at left ended
  refine ⟨s.stopOrder, fun o => (stopReady s).list o,
    fun o => leftOf (handedOn s .stopping s.stopOrder).sched.repeats o ((stopReady s).list o), ?_, left, ?_⟩
  · rw [funext lists]
    exact stopOrder_endsAtStop fun o => (agrees.1 o).1
  · rw [ended, queue]
    refine congrArg (_ ++ ·) (List.flatMap_congr fun o _ => ?_)
    obtain ⟨none, notYet⟩ := clear o
    rw [if_pos (stopsNow_iff.2 ⟨stopReady_clear none, (stopReady_marks s o).1.trans notYet⟩), stopReady_session]

/-- Settles O8: the marked entries of STANDBY end in their order, then each trunk with no attempt in flight ends. -/
theorem stopAccepted : Obligations.StopAccepted := by
  intro s idle st
  have ran := exec_stop idle st
  have sends := sends_trans (sends_stopReady s) (sends_stopClearTrunks (stopReady s))
  have stopping : (stopReady s).session.state = .stopping := by rw [stopReady_session]
  have parts := stopClearTrunks_parts stopping
  have only := stopClearTrunks_only (stopReady s)
  have ends := fun kept st => stop_ends (s := s) kept st
  have endsStandby := fun kept st clear => stop_ends_standby (s := s) kept st clear
  generalize (stopReady s).stopClearTrunks = t at ran sends parts only ends endsStandby
  obtain ⟨session, owed, _⟩ := only
  have closed := closeQueue_eq (stopBegun s)
  have refused := closeQueue_refused (stopBegun s)
  generalize (stopBegun s).closeQueue = c at sends closed refused
  have results : t.results.tallies = c.results.tallies := by rw [sends.results]
  refine ⟨t, ran, session.trans (stopReady_session s), ?_, ?_, ?_, ?_, fun o => ?_, fun standby o flying => ?_,
    fun o clear => ?_, fun o => ?_, ends, endsStandby, ?_, ?_, ?_⟩
  · rw [sends.regs, closed]
    rfl
  · rw [sends.standby, closed]
    rfl
  · rw [sends.sweeper, closed]
    rfl
  · rw [sends.director, closed]
    rfl
  · rw [results, refused o]
    rfl
  · have waits : stopsNow (stopReady s) o = false := by
      rw [stopsNow_stopReady standby, stopsNow, flying]
      rfl
    rw [(parts o).1 waits, (stopReady_other standby).1]
  · intro notYet
    exact (parts o).2 (stopsNow_iff.2 ⟨stopReady_clear clear, (stopReady_marks s o).1.trans notYet⟩)
  · rw [owed]
    exact (stopReady_marks s o).2
  · rw [sends.elsewhere.1.1, closed]
    rfl
  · rw [sends.port, closed]
    rfl
  · rw [sends.header, closed]
    rfl

end Sys2Proof.Proofs

/-! SUPPORT. In how many places an index stands, and what the ends of work leave of it (O57; R77, R82, R109). -/

namespace Sys2Proof.Proofs

open Sys2Proof.Machine Sys2Proof.Laws Sys2Proof.Safety

/-! ### The places of an index -/

/-- How often an index stands as an ordinary entry of a list. -/
def ordinaries (i : Nat) (l : List Entry) : Nat := l.countP (fun e => !e.round && e.index == i)

/-- How often an index stands as an ordinary entry of the pending lists. -/
def inLists (s : State) (i : Nat) : Nat :=
  ordinaries i (s.list 0) + ordinaries i (s.list 1) + ordinaries i (s.list 2) + ordinaries i (s.list 3)

/-- How often an index stands in a repeat table. -/
def inTable (table : List RepeatEntry) (i : Nat) : Nat := table.countP (fun r => r.index == i)

/-- How often an index stands with the director, offered or as a slot. -/
def atDirector (d : Director) (i : Nat) : Nat :=
  d.receiveList.countP (fun o => o.index == i) + d.queue.countP (fun q => q.slot == some i)

/-- The completion queue without its front, where that has had its state write. -/
def unwritten (front : Bool) (q : List Work) : List Work := if front then q.tail else q

/-- How often a completion queue completes an index. -/
def inQueue (front : Bool) (q : List Work) (i : Nat) : Nat := (unwritten front q).countP (completes i)

theorem holders_eq (s : State) (front : Bool) (i : Nat) :
    holders s front i =
      inLists s i + inTable s.sched.repeats i + atDirector s.director i + inQueue front s.results.queue i := by
  unfold holders inLists inTable atDirector inQueue ordinaries unwritten
  simp only [List.countP_eq_length_filter, List.filter_append, List.length_append]
  omega

theorem inLists_of_ordinaries {s v : State} {i : Nat} (same : ∀ o, ordinaries i (v.list o) = ordinaries i (s.list o)) :
    inLists v i = inLists s i := by
  unfold inLists
  rw [same 0, same 1, same 2, same 3]

/-- Where one list gains or loses, so do the lists together. -/
theorem inLists_change {s v : State} {t : Trunk} {i a b : Nat} (others : ∀ o, o ≠ t → v.list o = s.list o)
    (own : ordinaries i (v.list t) + a = ordinaries i (s.list t) + b) : inLists v i + a = inLists s i + b := by
  unfold inLists
  match t with
  | 0 =>
    rw [others 1 (by decide), others 2 (by decide), others 3 (by decide)]
    omega
  | 1 =>
    rw [others 0 (by decide), others 2 (by decide), others 3 (by decide)]
    omega
  | 2 =>
    rw [others 0 (by decide), others 1 (by decide), others 3 (by decide)]
    omega
  | 3 =>
    rw [others 0 (by decide), others 1 (by decide), others 2 (by decide)]
    omega

/-! ### The completion queue (R140) -/

theorem inQueue_append {front : Bool} {q : List Work} (ahead : front = true → q ≠ []) (w : Work) (i : Nat) :
    inQueue front (q ++ [w]) i = inQueue front q i + if completes i w = true then 1 else 0 := by
  unfold inQueue unwritten
  cases front with
  | false =>
    rw [if_neg Bool.false_ne_true, if_neg Bool.false_ne_true, List.countP_append, List.countP_singleton]
  | true =>
    rw [if_pos rfl, if_pos rfl, List.tail_append_of_ne_nil (ahead rfl), List.countP_append, List.countP_singleton]

theorem completes_done (i j : Nat) (g : SendResult) : completes i (.done j g) = (j == i) := rfl

theorem completes_of_isRoundOf {i j : Nat} {w : Work} (h : w.isRoundOf j = true) : completes i w = false := by
  cases w with
  | done k g => cases h
  | rejected k c => cases h
  | round k g => rfl

theorem placeRound_count (i j : Nat) (g : SendResult) (q : List Work) :
    (placeRound j g q).countP (completes i) = q.countP (completes i) := by
  induction q with
  | nil => rfl
  | cons w ws ih =>
    unfold placeRound
    split
    · rename_i round
      rw [List.countP_cons, List.countP_cons, completes_of_isRoundOf round]
      rfl
    · rw [List.countP_cons, List.countP_cons, ih]

/-- A round result handed on completes no index (R140). -/
theorem queueWithRound_parts (s : State) (j : Nat) (g : SendResult) :
    s.queueWithRound j g ≠ []
      ∧ ∀ front i, (front = true → s.results.queue ≠ []) →
          inQueue front (s.queueWithRound j g) i = inQueue front s.results.queue i := by
  unfold State.queueWithRound inQueue unwritten
  cases queue : s.results.queue with
  | nil =>
    refine ⟨List.cons_ne_nil _ _, fun front i ahead => ?_⟩
    cases front with
    | false => rfl
    | true => exact absurd rfl (ahead rfl)
  | cons w ws =>
    have placed : ∀ i, (placeRound j g (w :: ws)).tail.countP (completes i) = ws.countP (completes i) := by
      intro i
      unfold placeRound
      split
      · rfl
      · exact placeRound_count i j g ws
    have some : placeRound j g (w :: ws) ≠ [] := by
      unfold placeRound
      split
      · exact List.cons_ne_nil _ _
      · exact List.cons_ne_nil _ _
    dsimp only
    split
    · refine ⟨List.cons_ne_nil _ _, fun front i _ => ?_⟩
      cases front with
      | false =>
        rw [if_neg Bool.false_ne_true, if_neg Bool.false_ne_true, List.countP_cons, List.countP_cons, placeRound_count]
      | true => exact placeRound_count i j g ws
    · refine ⟨some, fun front i _ => ?_⟩
      cases front with
      | false => exact placeRound_count i j g (w :: ws)
      | true => exact placed i

/-! ### States in which an index stands once -/

/-- Rounds stand for repetitions in round, and each index stands in one place at most; with `front` the entry at the
front of the queue has had its state write. -/
structure Sound (front : Bool) (s : State) : Prop where
  rounds : RoundsInTable s
  ahead : front = true → s.results.queue ≠ []
  once : ∀ i, holders s front i ≤ 1

/-- From `s` to `v` every index that stood in a place stands in one still, and no other does. -/
def Conserves (s v : State) : Prop :=
  ∀ front, Sound front s → Sound front v ∧ ∀ i, holders v front i = holders s front i

theorem conserves_refl (s : State) : Conserves s s := fun _ h => ⟨h, fun _ => rfl⟩

theorem conserves_trans {r s v : State} (h : Conserves r s) (k : Conserves s v) : Conserves r v := by
  intro front sound
  obtain ⟨soundS, sameS⟩ := h front sound
  obtain ⟨soundV, sameV⟩ := k front soundS
  exact ⟨soundV, fun i => (sameV i).trans (sameS i)⟩

theorem conserves_of {s v : State} (parts : ∀ front, Sound front s →
      RoundsInTable v ∧ (front = true → v.results.queue ≠ []) ∧ ∀ i, holders v front i = holders s front i) :
    Conserves s v := by
  intro front sound
  obtain ⟨rounds, ahead, same⟩ := parts front sound
  exact ⟨⟨rounds, ahead, fun i => same i ▸ sound.once i⟩, same⟩

/-- In a sound state each index stands once in the repeat table. -/
theorem Sound.table {front : Bool} {s : State} (h : Sound front s) : (s.sched.repeats.map RepeatEntry.index).Nodup := by
  refine nodup_of_count fun i => ?_
  have one := h.once i
  rw [holders_eq] at one
  unfold inTable at one
  rw [List.countP_eq_length_filter] at one
  omega

theorem inTable_of_mem {table : List RepeatEntry} {r : RepeatEntry} (mem : r ∈ table) : 1 ≤ inTable table r.index :=
  List.one_le_countP_iff.2 ⟨r, mem, beq_self_eq_true _⟩

/-- What a repetition leaves of the table when it ends. -/
theorem inTable_remove {table : List RepeatEntry} (distinct : (table.map RepeatEntry.index).Nodup) {r : RepeatEntry}
    (mem : r ∈ table) (i : Nat) :
    inTable (table.filter (fun x => x.index != r.index)) i + (if r.index = i then 1 else 0) = inTable table i := by
  unfold inTable
  rw [List.countP_filter]
  by_cases own : r.index = i
  · subst own
    have gone : table.countP (fun x => x.index == r.index && x.index != r.index) = 0 :=
      List.countP_eq_zero.2 fun x _ k => by
        obtain ⟨same, other⟩ := Bool.and_eq_true_iff.1 k
        exact bne_iff_ne.1 other (beq_iff_eq.1 same)
    have one : table.countP (fun x => x.index == r.index) = 1 := by
      have count : (table.map RepeatEntry.index).count r.index = 1 :=
        List.count_eq_one_of_mem distinct (List.mem_map_of_mem mem)
      rw [List.count, List.countP_map] at count
      exact count
    rw [gone, one, if_pos rfl]
  · rw [if_neg own, Nat.add_zero]
    refine List.countP_congr fun x _ => ?_
    rw [Bool.and_eq_true, beq_iff_eq, bne_iff_ne]
    exact ⟨fun k => k.1, fun k => ⟨k, fun same => own (same.symm.trans k)⟩⟩

theorem inTable_map {table : List RepeatEntry} {f : RepeatEntry → RepeatEntry}
    (same : ∀ r ∈ table, (f r).index = r.index) (i : Nat) : inTable (table.map f) i = inTable table i := by
  unfold inTable
  rw [List.countP_map]
  refine List.countP_congr fun r mem => ?_
  rw [Function.comp_apply, same r mem]

/-! ### Rounds in the table (R109) -/

/-- Rounds stay in the table where the lists lose entries at most and the repetitions of what is left stay in round. -/
theorem roundsInTable_of {s v : State} (rounds : RoundsInTable s) (lists : ∀ o, (v.list o).Sublist (s.list o))
    (kept : ∀ o, ∀ e ∈ v.list o, e.round = true → ∀ r ∈ s.sched.repeats, r.index = e.index → r.copy.trunk = o →
      r.round = .inRound → ∃ k ∈ v.sched.repeats, k.index = e.index ∧ k.copy.trunk = o ∧ k.round = .inRound) :
    RoundsInTable v := by
  intro o
  obtain ⟨distinct, each⟩ := rounds o
  refine ⟨distinct.sublist ((lists o).map _), fun e mem round => ?_⟩
  obtain ⟨r, table, index, trunk, inRound⟩ := each e ((lists o).subset mem) round
  exact kept o e mem round r table index trunk inRound

/-! ### An entry that is handed on (R86, R112, R114) -/

/-- What handing an entry on makes of the table and the queue: an ordinary entry joins the queue; a round ends its
repetition, which joins the queue, or the repetition goes on with a round result; or there is none of its index. -/
theorem handOn_parts (s : State) (x : Entry) (c : ResultCode) (w : Word) :
    (x.round = false ∧ (s.handOn x c w).sched.repeats = s.sched.repeats
        ∧ ∃ g, (s.handOn x c w).results.queue = s.results.queue ++ [.done x.index g])
      ∨ (x.round = true ∧ s.findRepeat x.index = none)
      ∨ (x.round = true
        ∧ (s.handOn x c w).sched.repeats = s.sched.repeats.filter (fun r => r.index != x.index)
        ∧ ∃ g, (s.handOn x c w).results.queue = s.results.queue ++ [.done x.index g])
      ∨ (x.round = true
        ∧ (∃ k : RepeatEntry, k.index = x.index
          ∧ (s.handOn x c w).sched.repeats = s.sched.repeats.map (fun r => if r.index = x.index then k else r))
        ∧ ∃ g, (s.handOn x c w).results.queue = s.queueWithRound x.index g) := by
  unfold State.handOn
  by_cases round : x.round = true
  · rw [if_pos round]
    unfold State.roundEnded
    cases found : s.findRepeat x.index with
    | none => exact .inr (.inl ⟨round, rfl⟩)
    | some r =>
      have index := findRepeat_index found
      have ended : ∀ (k : RepeatEntry) (code : ResultCode) (g : Figures) (m : Word), k.index = x.index →
          (s.endRepeat k code g m).sched.repeats = s.sched.repeats.filter (fun r => r.index != x.index)
            ∧ ∃ g', (s.endRepeat k code g m).results.queue = s.results.queue ++ [.done x.index g'] := by
        intro k code g m own
        rw [← own]
        exact ⟨rfl, _, rfl⟩
      dsimp only
      split
      · split
        · exact .inr (.inr (.inl ⟨round, ended _ _ _ _ index⟩))
        · split
          · exact .inr (.inr (.inl ⟨round, ended _ _ _ _ index⟩))
          · exact .inr (.inr (.inr ⟨round, ⟨r.counted x.figures, index, rfl⟩, _, rfl⟩))
      · exact .inr (.inr (.inl ⟨round, ended _ _ _ _ index⟩))
  · rw [if_neg round]
    exact .inl ⟨Bool.eq_false_iff.2 round, rfl, _, rfl⟩

theorem ordinaries_split (i : Nat) (l1 l2 : List Entry) (y : Entry) :
    ordinaries i (l1 ++ l2) + (if (!y.round && y.index == i) = true then 1 else 0) = ordinaries i (l1 ++ y :: l2) := by
  unfold ordinaries
  rw [List.countP_append, List.countP_append, List.countP_cons]
  omega

/-- An entry that leaves its list and is handed on: its index stands in the queue, or its repetition goes on. -/
theorem conserves_handOn {s v : State} {t : Trunk} {l1 l2 : List Entry} {x y : Entry} {c : ResultCode} {w : Word}
    (list : s.list t = l1 ++ y :: l2) (index : y.index = x.index) (round : y.round = x.round)
    (left : v.list t = l1 ++ l2) (others : ∀ o, o ≠ t → v.list o = s.list o)
    (repeats : v.sched.repeats = (s.handOn x c w).sched.repeats)
    (queue : v.results.queue = (s.handOn x c w).results.queue) (director : v.director = s.director) : Conserves s v := by
  refine conserves_of fun front sound => ?_
  have table := sound.table
  obtain ⟨rounds, ahead, _⟩ := sound
  have mem : y ∈ s.list t := by
    rw [list]
    simp
  have sublists : ∀ o, (v.list o).Sublist (s.list o) := by
    intro o
    by_cases own : o = t
    · rw [own, left, list]
      exact (List.sublist_cons_self y l2).append_left l1
    · rw [others o own]
  have lists : ∀ i, inLists v i + (if (!x.round && x.index == i) = true then 1 else 0) = inLists s i := by
    intro i
    refine inLists_change (b := 0) others ?_
    rw [left, list, Nat.add_zero, ← ordinaries_split, index, round]
  have gone : ∀ o, ∀ e ∈ v.list o, x.round = true → e.round = true → e.index ≠ x.index := by
    intro o e he isRound eRound same
    by_cases own : o = t
    · rw [own, left] at he
      have distinct := (rounds t).1
      rw [list, List.map_append, List.map_cons, List.nodup_middle, List.nodup_cons, ← List.map_append] at distinct
      exact distinct.1 (index.trans same.symm ▸ List.mem_map_of_mem he)
    · rw [others o own] at he
      obtain ⟨r, hr, rindex, rtrunk, _⟩ := (rounds o).2 e he eRound
      obtain ⟨k, hk, kindex, ktrunk, _⟩ := (rounds t).2 y mem (round.trans isRound)
      have rk : r = k :=
        List.inj_on_of_nodup_map table hr hk (rindex.trans (same.trans (index.symm.trans kindex.symm)))
      exact own (rtrunk.symm.trans (rk ▸ ktrunk))
  have added : ∀ g i, inQueue front (s.results.queue ++ [.done x.index g]) i
      = inQueue front s.results.queue i + if x.index = i then 1 else 0 := by
    intro g i
    rw [inQueue_append ahead, completes_done]
    simp only [beq_iff_eq]
  have total : ∀ i, holders v front i = _ := fun i => holders_eq v front i
  rcases handOn_parts s x c w with ⟨plain, sameTable, g, grown⟩ | ⟨isRound, none⟩ | ⟨isRound, ended, g, grown⟩
    | ⟨isRound, ⟨k, own, changed⟩, g, grown⟩
  · rw [sameTable] at repeats
    rw [grown] at queue
    refine ⟨roundsInTable_of rounds sublists fun o e _ _ r hr rindex rtrunk inRound =>
      ⟨r, repeats ▸ hr, rindex, rtrunk, inRound⟩, fun _ => ?_, fun i => ?_⟩
    · rw [queue]
      exact List.append_ne_nil_of_right_ne_nil _ (List.cons_ne_nil _ _)
    · have count := lists i
      rw [plain] at count
      simp only [Bool.not_false, Bool.true_and, beq_iff_eq] at count
      rw [total, holders_eq, repeats, queue, director, added]
      omega
  · obtain ⟨r, hr, rindex, _⟩ := (rounds t).2 y mem (round.trans isRound)
    exact absurd (beq_iff_eq.2 (rindex.trans index)) (List.find?_eq_none.1 none r hr)
  · rw [ended] at repeats
    rw [grown] at queue
    refine ⟨roundsInTable_of rounds sublists fun o e he eRound r hr rindex rtrunk inRound =>
      ⟨r, ?_, rindex, rtrunk, inRound⟩, fun _ => ?_, fun i => ?_⟩
    · rw [repeats]
      exact List.mem_filter.2 ⟨hr, bne_iff_ne.2 fun same => gone o e he isRound eRound (rindex.symm.trans same)⟩
    · rw [queue]
      exact List.append_ne_nil_of_right_ne_nil _ (List.cons_ne_nil _ _)
    · have count := lists i
      rw [isRound] at count
      simp only [Bool.not_true, Bool.false_and, Bool.false_eq_true, if_false, Nat.add_zero] at count
      obtain ⟨r, hr, rindex, _⟩ := (rounds t).2 y mem (round.trans isRound)
      have removed := inTable_remove table hr i
      rw [rindex.trans index] at removed
      rw [total, holders_eq, repeats, queue, director, added, count]
      omega
  · rw [changed] at repeats
    rw [grown] at queue
    obtain ⟨some, sameQueue⟩ := queueWithRound_parts s x.index g
    refine ⟨roundsInTable_of rounds sublists fun o e he eRound r hr rindex rtrunk inRound =>
      ⟨r, ?_, rindex, rtrunk, inRound⟩, fun _ => queue ▸ some, fun i => ?_⟩
    · rw [repeats]
      exact List.mem_map.2 ⟨r, hr, if_neg fun same => gone o e he isRound eRound (rindex.symm.trans same)⟩
    · have count := lists i
      rw [isRound] at count
      simp only [Bool.not_true, Bool.false_and, Bool.false_eq_true, if_false, Nat.add_zero] at count
      rw [total, holders_eq, repeats, queue, director, sameQueue front i ahead, count, inTable_map]
      intro r _
      split
      · rename_i same
        exact own.trans same.symm
      · rfl

end Sys2Proof.Proofs

/-! SUPPORT. What the scheduler's and the director's work leaves within its places (O57; R74, R82, R108, R125). -/

namespace Sys2Proof.Proofs

open Sys2Proof.Machine Sys2Proof.Laws Sys2Proof.Safety

/-! ### The relation -/

/-- From `s` to `v` no collection has gone over its places, a frame that had a slot has it still, no offer is gone in
STOPPING, and the front of the completion queue stays while the port writes it. -/
structure Fits (s v : State) : Prop where
  elsewhere : SameElsewhere s v
  places : ∀ o, s.placesTaken o ≤ 16 → v.placesTaken o ≤ 16
  repeats : v.sched.repeats.length ≤ s.sched.repeats.length
  offers : v.director.receiveList.length ≤ s.director.receiveList.length
  frames : s.director.queue.length ≤ 6 → v.director.queue.length ≤ 6
  slots : ∀ i, (∃ q ∈ s.director.queue, q.slot = some i) → ∃ q ∈ v.director.queue, q.slot = some i
  stopping : s.session.state = .stopping → v.director.receiveList = s.director.receiveList
  front : s.frontGranted = true → ∀ w ∈ s.results.queue.head?, w ∈ v.results.queue.head?

theorem same_session {s v : State} (h : SameElsewhere s v) : v.session = s.session := by
  obtain ⟨_, session, _⟩ := h
  exact session

theorem same_port {s v : State} (h : SameElsewhere s v) : v.port = s.port := by
  obtain ⟨_, _, port, _⟩ := h
  exact port

theorem same_sweeper {s v : State} (h : SameElsewhere s v) : v.sweeper = s.sweeper := by
  obtain ⟨_, _, _, sweeper, _⟩ := h
  exact sweeper

theorem same_header {s v : State} (h : SameElsewhere s v) : v.header = s.header := by
  obtain ⟨_, _, _, _, header, _⟩ := h
  exact header

theorem same_frontGranted {s v : State} (h : SameElsewhere s v) : v.frontGranted = s.frontGranted := by
  unfold State.frontGranted
  rw [same_port h]

theorem fits_refl (s : State) : Fits s s :=
  ⟨(keeps_refl s).1, fun _ => id, Nat.le_refl _, Nat.le_refl _, id, fun _ => id, fun _ => rfl, fun _ _ => id⟩

theorem fits_trans {r s v : State} (h : Fits r s) (k : Fits s v) : Fits r v where
  elsewhere := same_trans h.elsewhere k.elsewhere
  places := fun o fit => k.places o (h.places o fit)
  repeats := Nat.le_trans k.repeats h.repeats
  offers := Nat.le_trans k.offers h.offers
  frames := fun fit => k.frames (h.frames fit)
  slots := fun i slot => k.slots i (h.slots i slot)
  stopping := fun st => (k.stopping (same_session h.elsewhere ▸ st)).trans (h.stopping st)
  front := fun granted w hw => k.front ((same_frontGranted h.elsewhere).trans granted) w (h.front granted w hw)

theorem placesTaken_of_length {s v : State} (sweeper : v.sweeper = s.sweeper) {o : Trunk}
    (length : (v.list o).length ≤ (s.list o).length) : v.placesTaken o ≤ s.placesTaken o := by
  unfold State.placesTaken
  rw [sweeper]
  omega

/-- The scheduler works: lists and table gain nothing, and the queue keeps its front. -/
theorem fits_of_sends {s v : State} (elsewhere : SameElsewhere s v) (director : v.director = s.director)
    (lists : ∀ o, (v.list o).length ≤ (s.list o).length) (repeats : v.sched.repeats.length ≤ s.sched.repeats.length)
    (front : s.frontGranted = true → ∀ w ∈ s.results.queue.head?, w ∈ v.results.queue.head?) : Fits s v where
  elsewhere := elsewhere
  places := fun o fit => Nat.le_trans (placesTaken_of_length (same_sweeper elsewhere) (lists o)) fit
  repeats := repeats
  offers := by rw [director]
  frames := by rw [director]; exact id
  slots := by rw [director]; exact fun _ => id
  stopping := fun _ => by rw [director]
  front := front

/-- Lists and table gain nothing, and the queue stays. -/
theorem fits_of_queue {s v : State} (elsewhere : SameElsewhere s v) (director : v.director = s.director)
    (lists : ∀ o, (v.list o).length ≤ (s.list o).length) (repeats : v.sched.repeats.length ≤ s.sched.repeats.length)
    (queue : v.results.queue = s.results.queue) : Fits s v :=
  fits_of_sends elsewhere director lists repeats fun _ w hw => by rw [queue]; exact hw

/-! ### Updates of one part -/

theorem fits_updateEngine (s : State) (t : Trunk) (f : Engine → Engine) : Fits s (s.updateEngine t f) :=
  fits_of_queue (keeps_refl s).1 rfl (fun _ => Nat.le_refl _) (Nat.le_refl _) rfl

theorem fits_tally (s : State) (t : Trunk) (f : Tally → Tally) : Fits s (s.tally t f) :=
  fits_of_queue (keeps_refl s).1 rfl (fun _ => Nat.le_refl _) (Nat.le_refl _) rfl

theorem fits_raise (s : State) (c : Cause) : Fits s (s.raise c) :=
  fits_of_queue (keeps_refl s).1 rfl (fun _ => Nat.le_refl _) (Nat.le_refl _) rfl

/-- The scheduler's settings and flags take no place. -/
theorem fits_setSched {s : State} {x : Scheduler} (lists : x.lists = s.sched.lists)
    (repeats : x.repeats.length ≤ s.sched.repeats.length) : Fits s (s.setSched x) :=
  fits_of_queue (keeps_setSched s x).1 rfl
    (fun o => Nat.le_of_eq (congrArg (fun q : Four (List Entry) => (q.get o).length) lists)) repeats rfl

theorem fits_setList {s : State} {t : Trunk} {l : List Entry} (length : l.length ≤ (s.list t).length) :
    Fits s (s.setList t l) := by
  refine fits_of_queue (keeps_setList s t l).1 rfl (fun o => ?_) (Nat.le_refl _) rfl
  by_cases own : o = t
  · rw [own, list_setList_same]
    exact length
  · rw [list_setList_other s t o l own]

theorem fits_setEngine (s : State) (t : Trunk) (e : Engine) : Fits s (s.setEngine t e) :=
  fits_of_queue (keeps_refl s).1 rfl (fun _ => Nat.le_refl _) (Nat.le_refl _) rfl

theorem fits_setRepeats {s : State} {l : List RepeatEntry} (length : l.length ≤ s.sched.repeats.length) :
    Fits s (s.setRepeats l) := fits_setSched rfl length

theorem fits_updateRepeat (s : State) (i : Nat) (f : RepeatEntry → RepeatEntry) : Fits s (s.updateRepeat i f) :=
  fits_setRepeats (Nat.le_of_eq (List.length_map _))

theorem fits_updateEntry (s : State) (t : Trunk) (i : Nat) (f : Entry → Entry) : Fits s (s.updateEntry t i f) :=
  fits_setList (Nat.le_of_eq (List.length_map _))

/-! ### The completion queue (R140) -/

theorem mem_head_append {q : List Work} {w x : Work} (h : w ∈ q.head?) : w ∈ (q ++ [x]).head? := by
  cases q with
  | nil => cases h
  | cons y ys => exact h

theorem fits_append (s : State) (x : Work) : Fits s (s.setQueue (s.results.queue ++ [x])) :=
  fits_of_sends (keeps_setQueue s _).1 rfl (fun _ => Nat.le_refl _) (Nat.le_refl _) fun _ _ => mem_head_append

theorem fits_handRound (s : State) (i : Nat) (g : SendResult) : Fits s (s.handRound i g) := by
  refine fits_of_sends (keeps_handRound s i g).1 rfl (fun _ => Nat.le_refl _) (Nat.le_refl _) fun granted w hw => ?_
  show w ∈ (s.queueWithRound i g).head?
  unfold State.queueWithRound
  cases queue : s.results.queue with
  | nil =>
    rw [queue] at hw
    cases hw
  | cons y ys =>
    rw [queue] at hw
    dsimp only
    rw [if_pos granted]
    exact hw

theorem fits_endRepeat (s : State) (r : RepeatEntry) (c : ResultCode) (g : Figures) (w : Word) :
    Fits s (s.endRepeat r c g w) :=
  fits_trans (fits_setRepeats (List.length_filter_le _ _)) (fits_append _ _)

theorem fits_handOn (s : State) (x : Entry) (c : ResultCode) (w : Word) : Fits s (s.handOn x c w) := by
  unfold State.handOn
  split
  · unfold State.roundEnded
    split
    · exact fits_refl s
    · dsimp only
      repeat' split
      · exact fits_endRepeat s _ _ _ _
      · exact fits_endRepeat s _ _ _ _
      · exact fits_trans (fits_updateRepeat s _ _) (fits_handRound _ _ _)
      · exact fits_endRepeat s _ _ _ _
  · exact fits_append s _

/-! ### Selections, entries and repetitions that end -/

theorem fits_withdraw (s : State) (t : Trunk) : Fits s (s.withdraw t) := by
  unfold State.withdraw
  split
  · exact fits_refl s
  · exact fits_trans (fits_setEngine s t _) (fits_setList (Nat.le_of_eq (List.length_map _)))

theorem fits_select (s : State) (t : Trunk) : Fits s (s.select t) := by
  unfold State.select
  split
  · split
    · exact fits_withdraw s t
    · split
      · exact fits_refl s
      · refine fits_trans (fits_setEngine s t _) (fits_setList (Nat.le_of_eq ?_))
        unfold mapIndex
        rw [List.length_map, List.length_map, list_setEngine]
  · exact fits_refl s

theorem fits_removeEntry (s : State) (t : Trunk) (i : Nat) : Fits s (s.removeEntry t i) := by
  have removed : Fits s (s.setList t ((s.list t).filter (fun e => e.index != i))) :=
    fits_setList (List.length_filter_le _ _)
  unfold State.removeEntry
  dsimp only
  split
  · exact fits_trans removed (fits_setEngine _ t _)
  · exact removed

theorem fits_finishEntry (s : State) (t : Trunk) (x : Entry) (c : ResultCode) (w : Word) :
    Fits s (s.finishEntry t x c w) := fits_trans (fits_removeEntry s t _) (fits_handOn _ x c w)

theorem fits_handOnAll (c : ResultCode) (w : Word) (l : List Entry) (s : State) : Fits s (handOnAll c w l s) := by
  induction l generalizing s with
  | nil => exact fits_refl s
  | cons x xs ih => exact fits_trans (fits_handOn s x c w) (ih _)

theorem fits_endRepeats (c : ResultCode) (w : Word) (l : List RepeatEntry) (s : State) : Fits s (endRepeats c w l s) := by
  induction l generalizing s with
  | nil => exact fits_refl s
  | cons r rs ih => exact fits_trans (fits_endRepeat s r c _ w) (ih _)

theorem fits_finishTrunk (s : State) (t : Trunk) (c : ResultCode) (w : Word) : Fits s (s.finishTrunk t c w) := by
  have emptied : Fits s ((s.withdraw t).setList t []) := fits_trans (fits_withdraw s t) (fits_setList (Nat.zero_le _))
  unfold State.finishTrunk
  exact fits_trans (fits_trans emptied (fits_handOnAll c w _ _)) (fits_endRepeats c w _ _)

theorem fits_finishMarked (l : List Marked) (s : State) : Fits s (finishMarked l s) := by
  induction l generalizing s with
  | nil => exact fits_refl s
  | cons m ms ih => exact fits_trans (fits_trans (fits_finishEntry s m.1 m.2 _ _) (fits_select _ m.1)) (ih _)

theorem fits_finishAtStop (l : List Marked) (s : State) : Fits s (finishAtStop l s) := by
  induction l generalizing s with
  | nil => exact fits_refl s
  | cons m ms ih => exact fits_trans (fits_finishEntry s m.1 m.2 _ _) (ih _)

/-! ### Joining (R84, R110) -/

theorem joinList_length (x : Entry) (l : List Entry) : (joinList x l).length = l.length + 1 :=
  (perm_insertBefore _ x l).length_eq

/-- An entry joins a list that has a free place. -/
theorem fits_withJoined {s : State} {i : Nat} {c : SendCopy} {round : Bool} (room : s.placesTaken c.trunk < 16) :
    Fits s (withJoined s i c round) where
  elsewhere := (sendsOn_withJoined s i c round).elsewhere.1
  places := fun o fit => by
    by_cases own : o = c.trunk
    · subst own
      have length : ((withJoined s i c round).list c.trunk).length = (s.list c.trunk).length + 1 := by
        show ((s.sched.lists.set c.trunk _).get c.trunk).length = _
        rw [get_set_same, joinList_length]
      have sweeper : (withJoined s i c round).sweeper = s.sweeper := rfl
      unfold State.placesTaken at room ⊢
      rw [length, sweeper]
      omega
    · have list := ((sendsOn_withJoined s i c round).others o own).2
      have sweeper := same_sweeper (sendsOn_withJoined s i c round).elsewhere.1
      exact Nat.le_trans (placesTaken_of_length (s := s) (o := o) sweeper (Nat.le_of_eq (congrArg List.length list))) fit
  repeats := Nat.le_refl _
  offers := Nat.le_refl _
  frames := id
  slots := fun _ => id
  stopping := fun _ => rfl
  front := fun _ _ => id

theorem fits_joinEntry {s : State} {i : Nat} {c : SendCopy} {round : Bool} (room : s.placesTaken c.trunk < 16) :
    Fits s (s.joinEntry i c round) := by
  rw [joinEntry_eq]
  split
  · exact fits_trans (fits_withJoined room) (fits_finishEntry _ _ _ _ _)
  · exact fits_trans (fits_withJoined room) (fits_select _ _)

theorem fits_joinRound (s : State) (t : Trunk) : Fits s (s.joinRound t) := by
  rcases joinRound_cases s t with h | ⟨r, _, place, next, h⟩
  · rw [h]
    exact fits_refl s
  · rw [h]
    obtain ⟨_, rfl, _⟩ := nextRound_some next
    have room : s.placesTaken r.copy.trunk < 16 := of_decide_eq_true place
    exact fits_trans (fits_updateRepeat s _ _) (fits_joinEntry room)

theorem fits_dueTimeOf (s : State) (r : RepeatEntry) : Fits s (s.dueTimeOf r) := by
  unfold State.dueTimeOf
  dsimp only
  cases s.session.state with
  | running | paused | settling =>
    cases r.round with
    | between => exact fits_trans (fits_updateRepeat s _ _) (fits_joinRound _ _)
    | due since => exact fits_updateRepeat s _ _
    | inRound => exact fits_updateRepeat s _ _
  | standby => exact fits_updateRepeat s _ _
  | stopping => exact fits_updateRepeat s _ _
  | unset => exact fits_refl s
  | faulted => exact fits_refl s

/-! ### Slot assignment and the queue of frames (R125, R130) -/

theorem fits_assignSlots {s : State} (live : s.session.state ≠ .stopping) : Fits s s.assignSlots where
  elsewhere := (keeps_assignSlots s).1
  places := fun _ => id
  repeats := Nat.le_refl _
  offers := (assignFrom_sublist [] s.director.queue s.director.receiveList).length_le
  frames := fun fit => Nat.le_trans (Nat.le_of_eq (assignFrom_length [] s.director.queue s.director.receiveList)) fit
  slots := fun i ⟨q, mem, slot⟩ => by
    obtain ⟨k, hk⟩ := List.mem_iff_getElem?.1 mem
    have bound : k < (framesOf [] s.director.queue s.director.receiveList).length := by
      rw [assignFrom_length]
      exact (List.getElem?_eq_some_iff.1 hk).1
    have given := List.getElem?_eq_getElem bound
    have kept := (assignFrom_slot [] s.director.queue s.director.receiveList k q _ hk given).1 (by rw [slot]; exact nofun)
    exact ⟨_, List.getElem_mem bound, kept.trans slot⟩
  stopping := fun st => absurd st live
  front := fun _ _ => id

theorem fits_assignIfRunning (s : State) : Fits s s.assignIfRunning := by
  unfold State.assignIfRunning
  split
  · rename_i h
    refine fits_assignSlots fun st => ?_
    rw [st] at h
    rcases h.1 with k | k
    · cases k
    · cases k
  · exact fits_refl s

end Sys2Proof.Proofs

/-! SUPPORT. What the scheduler's work makes of the places of an index: entries and repetitions that end (O57; R77, R82,
R86, R102, R104, R109). -/

namespace Sys2Proof.Proofs

open Sys2Proof.Machine Sys2Proof.Laws Sys2Proof.Safety

/-! ### Work that moves no index -/

/-- What of an entry decides where its index stands. -/
def keyOf (e : Entry) : Nat × Bool := (e.index, e.round)

theorem ordinaries_keys {l m : List Entry} (keys : m.map keyOf = l.map keyOf) (i : Nat) : ordinaries i m = ordinaries i l := by
  have count : ∀ n : List Entry, ordinaries i n = (n.map keyOf).countP (fun k => !k.2 && k.1 == i) := by
    intro n
    rw [List.countP_map]
    rfl
  rw [count, count, keys]

theorem indices_keys {l m : List Entry} (keys : m.map keyOf = l.map keyOf) : m.map Entry.index = l.map Entry.index := by
  have first : ∀ n : List Entry, n.map Entry.index = (n.map keyOf).map Prod.fst := fun n => by
    rw [List.map_map]
    rfl
  rw [first, first, keys]

theorem mem_keys {l m : List Entry} (keys : m.map keyOf = l.map keyOf) {e : Entry} (mem : e ∈ m) :
    ∃ x ∈ l, x.index = e.index ∧ x.round = e.round := by
  have key : keyOf e ∈ l.map keyOf := keys ▸ List.mem_map_of_mem mem
  obtain ⟨x, hx, same⟩ := List.mem_map.1 key
  obtain ⟨index, round⟩ := Prod.mk.inj same
  exact ⟨x, hx, index, round⟩

theorem roundsInTable_keys {s v : State} (rounds : RoundsInTable s)
    (keys : ∀ o, (v.list o).map keyOf = (s.list o).map keyOf)
    (kept : ∀ r ∈ s.sched.repeats, r.round = .inRound →
      ∃ k ∈ v.sched.repeats, k.index = r.index ∧ k.copy.trunk = r.copy.trunk ∧ k.round = .inRound) : RoundsInTable v := by
  intro o
  obtain ⟨distinct, each⟩ := rounds o
  refine ⟨indices_keys (keys o) ▸ distinct, fun e mem round => ?_⟩
  obtain ⟨x, hx, index, isRound⟩ := mem_keys (keys o) mem
  obtain ⟨r, hr, rindex, rtrunk, inRound⟩ := each x hx (isRound.trans round)
  obtain ⟨k, hk, kindex, ktrunk, kround⟩ := kept r hr inRound
  exact ⟨k, hk, kindex.trans (rindex.trans index), ktrunk.trans rtrunk, kround⟩

/-- Work that leaves the keys of the lists, the table, the director's part and the queue moves no index. -/
theorem conserves_keys {s v : State} (keys : ∀ o, (v.list o).map keyOf = (s.list o).map keyOf)
    (repeats : v.sched.repeats = s.sched.repeats) (director : v.director = s.director)
    (queue : v.results.queue = s.results.queue) : Conserves s v := by
  refine conserves_of fun front sound => ?_
  refine ⟨roundsInTable_keys sound.rounds keys fun r hr inRound => ⟨r, repeats ▸ hr, rfl, rfl, inRound⟩,
    fun h => queue ▸ sound.ahead h, fun i => ?_⟩
  rw [holders_eq, holders_eq, repeats, director, queue, inLists_of_ordinaries fun o => ordinaries_keys (keys o) i]

/-- Work that leaves the lists too. -/
theorem conserves_same {s v : State} (lists : v.sched.lists = s.sched.lists) (repeats : v.sched.repeats = s.sched.repeats)
    (director : v.director = s.director) (queue : v.results.queue = s.results.queue) : Conserves s v :=
  conserves_keys (fun o => congrArg (fun q : Four (List Entry) => (q.get o).map keyOf) lists) repeats director queue

theorem conserves_setList {s : State} {t : Trunk} {l : List Entry} (keys : l.map keyOf = (s.list t).map keyOf) :
    Conserves s (s.setList t l) := by
  refine conserves_keys (fun o => ?_) rfl rfl rfl
  by_cases own : o = t
  · rw [own, list_setList_same, keys]
  · rw [list_setList_other s t o l own]

theorem keys_map {f : Entry → Entry} (same : ∀ e, keyOf (f e) = keyOf e) (l : List Entry) :
    (l.map f).map keyOf = l.map keyOf := by
  rw [List.map_map]
  exact List.map_congr_left fun e _ => same e

theorem keyOf_disarmed (e : Entry) : keyOf e.disarmed = keyOf e := by
  unfold Entry.disarmed
  split
  · rfl
  · rfl

theorem keys_mapIndex {f : Entry → Entry} (same : ∀ e, keyOf (f e) = keyOf e) (i : Nat) (l : List Entry) :
    (mapIndex i f l).map keyOf = l.map keyOf := by
  refine keys_map (fun e => ?_) l
  split
  · exact same e
  · rfl

theorem conserves_updateEntry (s : State) (t : Trunk) (i : Nat) {f : Entry → Entry} (same : ∀ e, keyOf (f e) = keyOf e) :
    Conserves s (s.updateEntry t i f) := conserves_setList (keys_mapIndex same i _)

theorem conserves_withdraw (s : State) (t : Trunk) : Conserves s (s.withdraw t) := by
  unfold State.withdraw
  split
  · exact conserves_refl s
  · exact conserves_trans (conserves_same (v := s.setEngine t _) rfl rfl rfl rfl)
      (conserves_setList (keys_map keyOf_disarmed _))

theorem conserves_select (s : State) (t : Trunk) : Conserves s (s.select t) := by
  unfold State.select
  split
  · split
    · exact conserves_withdraw s t
    · split
      · exact conserves_refl s
      · refine conserves_trans (conserves_same (v := s.setEngine t _) rfl rfl rfl rfl) (conserves_setList ?_)
        exact (keys_mapIndex (f := fun x => { x with condition := .armed }) (fun _ => rfl) _ _).trans
          (keys_map keyOf_disarmed _)
  · exact conserves_refl s

/-! ### Repetitions that change (R109, R113, R115) -/

/-- The repetition of an index changes, but not its index or trunk, and it stays in round. -/
theorem conserves_updateRepeat {s : State} {i : Nat} {f : RepeatEntry → RepeatEntry}
    (same : ∀ front, Sound front s → ∀ r ∈ s.sched.repeats, r.index = i →
      (f r).index = r.index ∧ (f r).copy.trunk = r.copy.trunk ∧ (r.round = .inRound → (f r).round = .inRound)) :
    Conserves s (s.updateRepeat i f) := by
  refine conserves_of fun front sound => ?_
  have each := same front sound
  refine ⟨roundsInTable_keys sound.rounds (fun _ => rfl) fun r hr inRound => ?_, sound.ahead, fun i => ?_⟩
  · refine ⟨_, List.mem_map_of_mem hr, ?_⟩
    by_cases own : r.index = i
    · obtain ⟨index, trunk, stays⟩ := each r hr own
      rw [if_pos own]
      exact ⟨index, trunk, stays inRound⟩
    · rw [if_neg own]
      exact ⟨rfl, rfl, inRound⟩
  · rw [holders_eq, holders_eq]
    refine congrArg (fun n => _ + n + _ + _) (inTable_map (fun r hr => ?_) i)
    split
    · rename_i own
      obtain ⟨index, _⟩ := each r hr own
      exact index
    · rfl

/-- The one repetition of its index. -/
theorem Sound.repeat_eq {front : Bool} {s : State} (h : Sound front s) {r k : RepeatEntry} (hr : r ∈ s.sched.repeats)
    (hk : k ∈ s.sched.repeats) (index : r.index = k.index) : r = k :=
  List.inj_on_of_nodup_map h.table hr hk index

/-- A repetition without a round in the lists ends: its index stands in the queue (R114). -/
theorem conserves_endRepeat {s : State} {r : RepeatEntry} (mem : ∃ k ∈ s.sched.repeats, k.index = r.index)
    (free : ∀ o, ∀ e ∈ s.list o, e.round = true → e.index ≠ r.index) (c : ResultCode) (g : Figures) (w : Word) :
    Conserves s (s.endRepeat r c g w) := by
  obtain ⟨k, hk, index⟩ := mem
  refine conserves_of fun front sound => ?_
  refine ⟨roundsInTable_of sound.rounds (fun _ => List.Sublist.refl _) fun o e he round x hx xindex trunk inRound =>
    ⟨x, List.mem_filter.2 ⟨hx, bne_iff_ne.2 fun same => free o e he round (xindex.symm.trans same)⟩, xindex, trunk,
      inRound⟩,
    fun _ => List.append_ne_nil_of_right_ne_nil _ (List.cons_ne_nil _ _), fun i => ?_⟩
  have removed := inTable_remove sound.table hk i
  rw [index] at removed
  have queue : (s.endRepeat r c g w).results.queue = s.results.queue ++ [.done r.index _] := rfl
  have repeats : (s.endRepeat r c g w).sched.repeats = s.sched.repeats.filter (fun x => x.index != r.index) := rfl
  have lists : inLists (s.endRepeat r c g w) i = inLists s i := rfl
  have director : (s.endRepeat r c g w).director = s.director := rfl
  rw [holders_eq, holders_eq, queue, repeats, lists, director, inQueue_append sound.ahead, completes_done]
  simp only [beq_iff_eq]
  omega

/-! ### Entries that end -/

theorem split_of_mem {l : List Entry} (distinct : (l.map Entry.index).Nodup) {y : Entry} (mem : y ∈ l) :
    ∃ l1 l2, l = l1 ++ y :: l2 ∧ l.filter (fun x => x.index != y.index) = l1 ++ l2 := by
  obtain ⟨l1, l2, rfl⟩ := List.append_of_mem mem
  refine ⟨l1, l2, rfl, ?_⟩
  rw [List.map_append, List.map_cons, List.nodup_middle, List.nodup_cons, ← List.map_append] at distinct
  rw [List.filter_append, List.filter_cons_of_neg (by simp), ← List.filter_append]
  refine List.filter_eq_self.2 fun x hx => bne_iff_ne.2 fun same => distinct.1 ?_
  exact same ▸ List.mem_map_of_mem hx

/-- An entry that stands in its list ends (R86). -/
theorem conserves_finishEntry {s : State} {t : Trunk} {x : Entry}
    (mem : ∃ y ∈ s.list t, y.index = x.index ∧ y.round = x.round) (c : ResultCode) (w : Word) :
    Conserves s (s.finishEntry t x c w) := by
  obtain ⟨y, hy, index, round⟩ := mem
  intro front sound
  obtain ⟨l1, l2, list, left⟩ := split_of_mem (sound.rounds t).1 hy
  obtain ⟨results, sched⟩ := finishEntry_tables (s := s) (r := s) (t := t) rfl rfl ⟨rfl, rfl⟩ rfl x c w
  have sends := sendsOn_finishEntry s t x c w
  refine conserves_handOn (c := c) (w := w) list index round ?_ (fun o other => (sends.others o other).2) ?_ ?_ sends.director
    front sound
  · rw [finishEntry_list, if_pos rfl, ← index, left]
  · rw [sched]
  · rw [results]

/-- Where a marked entry stands. -/
def markKey (m : Marked) : Trunk × Nat := (m.1, m.2.index)

theorem conserves_finishMarked {l : List Marked} {s : State}
    (members : ∀ m ∈ l, ∃ y ∈ s.list m.1, y.index = m.2.index ∧ y.round = m.2.round)
    (distinct : (l.map markKey).Nodup) : Conserves s (finishMarked l s) := by
  induction l generalizing s with
  | nil => exact conserves_refl s
  | cons m ms ih =>
    obtain ⟨new, rest⟩ := List.nodup_cons.1 distinct
    refine conserves_trans (conserves_trans (conserves_finishEntry (members m List.mem_cons_self) .expired _)
      (conserves_select _ m.1)) (ih (fun k hk => ?_) rest)
    obtain ⟨y, hy, index, round⟩ := members k (List.mem_cons_of_mem m hk)
    have kept : y ∈ (s.finishEntry m.1 m.2 .expired (m.2.stamp.getD s.now)).list k.1 := by
      rw [finishEntry_list]
      split
      · rename_i own
        refine List.mem_filter.2 ⟨own ▸ hy, bne_iff_ne.2 fun same => new ?_⟩
        exact List.mem_map.2 ⟨k, hk, Prod.ext own (index.symm.trans same)⟩
      · exact hy
    obtain ⟨f, list, same⟩ := sameButConditions_select (s.finishEntry m.1 m.2 .expired (m.2.stamp.getD s.now)) m.1 k.1
    obtain ⟨cond, hcond⟩ := same y
    refine ⟨f y, list ▸ List.mem_map_of_mem kept, ?_⟩
    rw [hcond]
    exact ⟨index, round⟩

theorem conserves_finishAtStop {l : List Marked} {s : State}
    (members : ∀ m ∈ l, ∃ y ∈ s.list m.1, y.index = m.2.index ∧ y.round = m.2.round)
    (distinct : (l.map markKey).Nodup) : Conserves s (finishAtStop l s) := by
  induction l generalizing s with
  | nil => exact conserves_refl s
  | cons m ms ih =>
    obtain ⟨new, rest⟩ := List.nodup_cons.1 distinct
    refine conserves_trans (conserves_finishEntry (members m List.mem_cons_self) m.2.stopCode _) (ih (fun k hk => ?_) rest)
    obtain ⟨y, hy, index, round⟩ := members k (List.mem_cons_of_mem m hk)
    refine ⟨y, ?_, index, round⟩
    rw [finishEntry_list]
    split
    · rename_i own
      refine List.mem_filter.2 ⟨own ▸ hy, bne_iff_ne.2 fun same => new ?_⟩
      exact List.mem_map.2 ⟨k, hk, Prod.ext own (index.symm.trans same)⟩
    · exact hy

/-! ### Trunks that end (R102, R104, R116, R117) -/

theorem handOn_setList (s : State) (t : Trunk) (l : List Entry) (x : Entry) (c : ResultCode) (w : Word) :
    (s.setList t l).handOn x c w = (s.handOn x c w).setList t l := by
  have found : ∀ i, (s.setList t l).findRepeat i = s.findRepeat i := fun _ => rfl
  unfold State.handOn State.roundEnded
  rw [found]
  generalize s.findRepeat x.index = r
  by_cases round : x.round = true
  · rw [if_pos round, if_pos round]
    cases r with
    | none => rfl
    | some r =>
      have session : (s.setList t l).session.state = s.session.state := rfl
      dsimp only
      rw [session]
      repeat' split
      all_goals rfl
  · rw [if_neg round, if_neg round]
    rfl

theorem handOnAll_setList (c : ResultCode) (w : Word) (l : List Entry) (s : State) (t : Trunk) (m : List Entry) :
    handOnAll c w l (s.setList t m) = (handOnAll c w l s).setList t m := by
  induction l generalizing s with
  | nil => rfl
  | cons x xs ih =>
    show handOnAll c w xs ((s.setList t m).handOn x c w) = _
    rw [handOn_setList, ih]
    rfl

theorem setList_setList (s : State) (t : Trunk) (l m : List Entry) : (s.setList t l).setList t m = s.setList t m := by
  have four : ∀ q : Four (List Entry), (q.set t l).set t m = q.set t m := by
    intro q
    match t with
    | 0 => rfl
    | 1 => rfl
    | 2 => rfl
    | 3 => rfl
  unfold State.setList
  show ({ s with sched := { s.sched with lists := (s.sched.lists.set t l).set t m } } : State) = _
  rw [four]
  rfl

/-- Every entry of a trunk's list is handed on, and the list is empty. -/
theorem conserves_handOnAll {l : List Entry} {s : State} {t : Trunk} (list : s.list t = l) (c : ResultCode) (w : Word) :
    Conserves s ((handOnAll c w l s).setList t []) := by
  induction l generalizing s with
  | nil => exact conserves_setList (by rw [list])
  | cons x xs ih =>
    have one : Conserves s ((s.handOn x c w).setList t xs) := by
      refine conserves_handOn (l1 := []) list rfl rfl (list_setList_same _ t xs) (fun o other => ?_) rfl rfl ?_
      · rw [list_setList_other _ t o xs other]
        exact congrArg (fun q : Four (List Entry) => q.get o) (handOn_lists s x c w)
      · exact (sendsOn_handOn t s x c w).director
    have rest := ih (s := (s.handOn x c w).setList t xs) (list_setList_same _ t xs)
    rw [handOnAll_setList, setList_setList] at rest
    exact conserves_trans one rest

/-- Repetitions of a trunk whose list is empty end. -/
theorem conserves_endRepeats {l : List RepeatEntry} {s : State} (members : ∀ r ∈ l, r ∈ s.sched.repeats)
    (distinct : (l.map RepeatEntry.index).Nodup)
    (free : ∀ r ∈ l, ∀ o, ∀ e ∈ s.list o, e.round = true → e.index ≠ r.index) (c : ResultCode) (w : Word) :
    Conserves s (endRepeats c w l s) := by
  induction l generalizing s with
  | nil => exact conserves_refl s
  | cons r rs ih =>
    obtain ⟨new, rest⟩ := List.nodup_cons.1 distinct
    have one := conserves_endRepeat ⟨r, members r List.mem_cons_self, rfl⟩ (free r List.mem_cons_self) c r.figures w
    refine conserves_trans one (ih (fun k hk => ?_) rest fun k hk => free k (List.mem_cons_of_mem r hk))
    refine List.mem_filter.2 ⟨members k (List.mem_cons_of_mem r hk), bne_iff_ne.2 fun same => new ?_⟩
    exact same ▸ List.mem_map_of_mem hk

theorem conserves_finishTrunk (s : State) (t : Trunk) (c : ResultCode) (w : Word) :
    Conserves s (s.finishTrunk t c w) := by
  have withdrawn : Conserves s ((s.withdraw t).setList t (s.list t)) := by
    refine conserves_trans (conserves_withdraw s t) (conserves_setList ?_)
    unfold State.withdraw
    split
    · rfl
    · rw [list_setList_same, keys_map keyOf_disarmed]
  have handed := conserves_handOnAll (list_setList_same (s.withdraw t) t (s.list t)) c w
  rw [handOnAll_setList, setList_setList, ← handOnAll_setList] at handed
  have emptied := conserves_trans withdrawn handed
  intro front sound
  have eq := finishTrunk_eq s t c w
  dsimp only at eq
  rw [eq]
  have empty : (handOnAll c w (s.list t) ((s.withdraw t).setList t [])).list t = [] := by
    rw [handOnAll_setList, list_setList_same]
  generalize handOnAll c w (s.list t) ((s.withdraw t).setList t []) = r at emptied empty
  obtain ⟨soundR, _⟩ := emptied front sound
  have part : ∀ k ∈ r.repeatsOf t, k ∈ r.sched.repeats ∧ k.copy.trunk = t := by
    intro k hk
    unfold State.repeatsOf at hk
    rw [mem_orderBy, List.mem_filter] at hk
    exact ⟨hk.1, beq_iff_eq.1 hk.2⟩
  refine conserves_trans emptied (conserves_endRepeats (fun k hk => (part k hk).1) ?_ (fun k hk o e he round same => ?_) c w)
    front sound
  · have perm : (r.repeatsOf t).Perm (r.sched.repeats.filter (fun x => x.copy.trunk == t)) := perm_orderBy _ _
    exact (perm.map _).nodup_iff.2 (soundR.table.sublist (List.filter_sublist.map _))
  · obtain ⟨x, hx, xindex, trunk, _⟩ := (soundR.rounds o).2 e he round
    obtain ⟨mem, own⟩ := part k hk
    have xk := soundR.repeat_eq hx mem (xindex.trans same)
    have here : o = t := trunk.symm.trans (xk ▸ own)
    rw [here, empty] at he
    cases he

end Sys2Proof.Proofs

/-! SUPPORT. The send scheduler's work, operation by operation: it stays within its places and moves each index from one
place to one other at most (O57; R77, R82, R91 to R117). -/

namespace Sys2Proof.Proofs

open Sys2Proof.Machine Sys2Proof.Laws Sys2Proof.Safety

/-- From `s` to `v` the collections stay within their places, and each index stands in as many places as before. -/
structure Hands (s v : State) : Prop where
  fits : Fits s v
  conserves : Conserves s v

theorem hands_refl (s : State) : Hands s s := ⟨fits_refl s, conserves_refl s⟩

theorem hands_trans {r s v : State} (h : Hands r s) (k : Hands s v) : Hands r v :=
  ⟨fits_trans h.fits k.fits, conserves_trans h.conserves k.conserves⟩

/-! ### Updates of one part -/

theorem hands_updateEngine (s : State) (t : Trunk) (f : Engine → Engine) : Hands s (s.updateEngine t f) :=
  ⟨fits_updateEngine s t f, conserves_same rfl rfl rfl rfl⟩

theorem hands_tally (s : State) (t : Trunk) (f : Tally → Tally) : Hands s (s.tally t f) :=
  ⟨fits_tally s t f, conserves_same rfl rfl rfl rfl⟩

theorem hands_raise (s : State) (c : Cause) : Hands s (s.raise c) := ⟨fits_raise s c, conserves_same rfl rfl rfl rfl⟩

theorem hands_setSched {s : State} {x : Scheduler} (lists : x.lists = s.sched.lists)
    (repeats : x.repeats = s.sched.repeats) : Hands s (s.setSched x) :=
  ⟨fits_setSched lists (Nat.le_of_eq (congrArg List.length repeats)), conserves_same lists repeats rfl rfl⟩

theorem hands_updateEntry (s : State) (t : Trunk) (i : Nat) {f : Entry → Entry} (same : ∀ e, keyOf (f e) = keyOf e) :
    Hands s (s.updateEntry t i f) := ⟨fits_updateEntry s t i f, conserves_updateEntry s t i same⟩

theorem hands_updateRepeat {s : State} {i : Nat} {f : RepeatEntry → RepeatEntry}
    (same : ∀ front, Sound front s → ∀ r ∈ s.sched.repeats, r.index = i →
      (f r).index = r.index ∧ (f r).copy.trunk = r.copy.trunk ∧ (r.round = .inRound → (f r).round = .inRound)) :
    Hands s (s.updateRepeat i f) := ⟨fits_updateRepeat s i f, conserves_updateRepeat same⟩

theorem hands_withdraw (s : State) (t : Trunk) : Hands s (s.withdraw t) := ⟨fits_withdraw s t, conserves_withdraw s t⟩

theorem hands_select (s : State) (t : Trunk) : Hands s (s.select t) := ⟨fits_select s t, conserves_select s t⟩

theorem hands_selectInWindow (s : State) (t : Trunk) : Hands s (s.selectInWindow t) := by
  unfold State.selectInWindow
  split
  · exact hands_select s t
  · exact hands_refl s

theorem hands_finishEntry {s : State} {t : Trunk} {x : Entry} (mem : ∃ y ∈ s.list t, y.index = x.index ∧ y.round = x.round)
    (c : ResultCode) (w : Word) : Hands s (s.finishEntry t x c w) :=
  ⟨fits_finishEntry s t x c w, conserves_finishEntry mem c w⟩

/-! ### Trunks that end (R102, R104, R116, R117) -/

theorem hands_finishTrunk (s : State) (t : Trunk) (c : ResultCode) (w : Word) : Hands s (s.finishTrunk t c w) :=
  ⟨fits_finishTrunk s t c w, conserves_finishTrunk s t c w⟩

theorem hands_trunkOffProcessing (s : State) (t : Trunk) : Hands s (s.trunkOffProcessing t) :=
  hands_trans (hands_setSched (x := { s.sched with offDone := s.sched.offDone.set t true }) rfl rfl)
    (hands_finishTrunk _ t _ _)

theorem hands_offIfOwed (s : State) (t : Trunk) : Hands s (s.offIfOwed t) := by
  unfold State.offIfOwed
  split
  · exact hands_trans (hands_setSched (x := { s.sched with offOwed := s.sched.offOwed.set t false }) rfl rfl)
      (hands_trunkOffProcessing _ t)
  · exact hands_refl s

theorem hands_owedTrunksOff (s : State) : Hands s s.owedTrunksOff :=
  hands_trans (hands_trans (hands_trans (hands_offIfOwed s 0) (hands_offIfOwed _ 1)) (hands_offIfOwed _ 2))
    (hands_offIfOwed _ 3)

theorem hands_stopIfClear (s : State) (t : Trunk) : Hands s (s.stopIfClear t) := by
  unfold State.stopIfClear
  split
  · exact hands_trans (hands_setSched (x := { s.sched with stopDone := s.sched.stopDone.set t true }) rfl rfl)
      (hands_finishTrunk _ t _ _)
  · exact hands_refl s

theorem hands_stopClearTrunks (s : State) : Hands s s.stopClearTrunks :=
  hands_trans (hands_trans (hands_trans (hands_stopIfClear s 0) (hands_stopIfClear _ 1)) (hands_stopIfClear _ 2))
    (hands_stopIfClear _ 3)

theorem hands_takeOffReport (s : State) (t : Trunk) : Hands s (s.takeOffReport t) := by
  rcases takeOffReport_cases s t with ⟨_, h⟩ | ⟨_, _, h⟩ | ⟨_, _, h⟩
  · rw [h]
    exact hands_refl s
  · rw [h]
    exact hands_setSched rfl rfl
  · rw [h]
    exact hands_trunkOffProcessing s t

/-! ### Rounds that join (R109, R110, R113) -/

theorem perm_joinList (x : Entry) (l : List Entry) : (joinList x l).Perm (x :: l) := perm_insertBefore _ x l

theorem withJoined_lists (s : State) (i : Nat) (c : SendCopy) (round : Bool) :
    (withJoined s i c round).list c.trunk = joinList (newEntry i c round s.sched.seq s.now) (s.list c.trunk)
      ∧ ∀ o, o ≠ c.trunk → (withJoined s i c round).list o = s.list o :=
  ⟨get_set_same _ _ _, fun _ other => get_set_other _ _ _ _ other⟩

theorem inLists_withJoined (s : State) (i : Nat) (c : SendCopy) (round : Bool) (j : Nat) :
    inLists (withJoined s i c round) j = inLists s j + if (!round && i == j) = true then 1 else 0 := by
  obtain ⟨own, others⟩ := withJoined_lists s i c round
  have change := inLists_change (s := s) (v := withJoined s i c round) (t := c.trunk) (i := j) (a := 0)
    (b := if (!round && i == j) = true then 1 else 0) others (by
      rw [own, Nat.add_zero]
      unfold ordinaries
      rw [(perm_joinList _ _).countP_eq, List.countP_cons]
      rfl)
  rw [Nat.add_zero] at change
  exact change

/-- An entry that joins stands in its list with an index that is new there; a round stands for a repetition in round. -/
theorem roundsInTable_withJoined {s : State} {i : Nat} {c : SendCopy} {round : Bool} (rounds : RoundsInTable s)
    (new : i ∉ (s.list c.trunk).map Entry.index)
    (inRound : round = true → ∃ r ∈ s.sched.repeats, r.index = i ∧ r.copy.trunk = c.trunk ∧ r.round = .inRound) :
    RoundsInTable (withJoined s i c round) := by
  obtain ⟨own, others⟩ := withJoined_lists s i c round
  intro o
  by_cases here : o = c.trunk
  · subst here
    rw [own]
    obtain ⟨distinct, each⟩ := rounds c.trunk
    refine ⟨?_, fun e he isRound => ?_⟩
    · rw [((perm_joinList _ _).map _).nodup_iff, List.map_cons, List.nodup_cons]
      exact ⟨new, distinct⟩
    · rcases List.mem_cons.1 ((perm_joinList _ _).mem_iff.1 he) with rfl | mem
      · exact inRound isRound
      · exact each e mem isRound
  · rw [others o here]
    exact rounds o

theorem joinEntry_of {s : State} {i : Nat} {c : SendCopy} {round : Bool} :
    Conserves (withJoined s i c round) (s.joinEntry i c round) := by
  rw [joinEntry_eq]
  split
  · refine conserves_finishEntry ⟨newEntry i c round s.sched.seq s.now, ?_, rfl, rfl⟩ _ _
    rw [(withJoined_lists s i c round).1]
    exact (perm_joinList _ _).mem_iff.2 List.mem_cons_self
  · exact conserves_select _ _

/-- In a sound state the index of a repetition that is not in round stands in no list. -/
theorem Sound.free {front : Bool} {s : State} (h : Sound front s) {r : RepeatEntry} (mem : r ∈ s.sched.repeats)
    (waits : r.round ≠ .inRound) (o : Trunk) : r.index ∉ (s.list o).map Entry.index := by
  intro hmem
  obtain ⟨e, he, index⟩ := List.mem_map.1 hmem
  cases round : e.round with
  | true =>
    obtain ⟨k, hk, kindex, _, inRound⟩ := (h.rounds o).2 e he round
    exact waits (h.repeat_eq mem hk (index.symm.trans kindex.symm) ▸ inRound)
  | false =>
    have one := h.once r.index
    have table := inTable_of_mem mem
    have list : 1 ≤ ordinaries r.index (s.list o) :=
      List.one_le_countP_iff.2 ⟨e, he, by rw [round, index]; simp⟩
    have all : ordinaries r.index (s.list o) ≤ inLists s r.index := by
      unfold inLists
      match o with
      | 0 => omega
      | 1 => omega
      | 2 => omega
      | 3 => omega
    rw [holders_eq] at one
    omega

theorem conserves_joinRound (s : State) (t : Trunk) : Conserves s (s.joinRound t) := by
  rcases joinRound_cases s t with h | ⟨r, _, _, next, h⟩
  · rw [h]
    exact conserves_refl s
  · rw [h]
    obtain ⟨mem, trunk, since, due⟩ := nextRound_some next
    intro front sound
    have waits : r.round ≠ .inRound := by
      rw [due]
      exact nofun
    have new := sound.free mem waits r.copy.trunk
    have changed : Conserves s (s.updateRepeat r.index (fun x => { x with round := .inRound })) :=
      conserves_updateRepeat fun _ _ _ _ _ => ⟨rfl, rfl, fun _ => rfl⟩
    have stands : ∃ k ∈ (s.updateRepeat r.index (fun x => { x with round := .inRound })).sched.repeats,
        k.index = r.index ∧ k.copy.trunk = r.copy.trunk ∧ k.round = .inRound :=
      ⟨{ r with round := .inRound }, List.mem_map.2 ⟨r, mem, if_pos rfl⟩, rfl, rfl, rfl⟩
    have lists : (s.updateRepeat r.index (fun x => { x with round := .inRound })).list r.copy.trunk = s.list r.copy.trunk := rfl
    generalize s.updateRepeat r.index (fun x => { x with round := .inRound }) = u at changed stands lists
    have joined : Conserves u (withJoined u r.index r.copy true) := by
      refine conserves_of fun front sound => ⟨roundsInTable_withJoined sound.rounds (lists ▸ new) fun _ => stands,
        sound.ahead, fun j => ?_⟩
      rw [holders_eq, holders_eq, inLists_withJoined]
      rfl
    exact conserves_trans changed (conserves_trans joined joinEntry_of) front sound

theorem hands_joinRound (s : State) (t : Trunk) : Hands s (s.joinRound t) := ⟨fits_joinRound s t, conserves_joinRound s t⟩

theorem hands_dueTimeOf {s : State} {r : RepeatEntry} (mem : r ∈ s.sched.repeats) : Hands s (s.dueTimeOf r) := by
  have changed : ∀ k : RepeatEntry, k.index = r.index → k.copy = r.copy → (r.round = .inRound → k.round = .inRound) →
      Hands s (s.updateRepeat r.index (fun _ => k)) := by
    intro k index copy stays
    refine hands_updateRepeat fun front sound x hx own => ?_
    have same := sound.repeat_eq hx mem own
    subst same
    exact ⟨index, by rw [copy], stays⟩
  unfold State.dueTimeOf
  dsimp only
  cases s.session.state with
  | running | paused | settling =>
    cases round : r.round with
    | between =>
      have due := changed { r with nextDue := r.nextDue + BitVec.ofNat 32 r.period, round := .due r.nextDue } rfl rfl
        fun h => by rw [round] at h; cases h
      exact hands_trans due (hands_joinRound _ _)
    | due since => exact changed _ rfl rfl fun h => by rw [round] at h; cases h
    | inRound => exact changed _ rfl rfl fun _ => rfl
  | standby => exact changed _ rfl rfl id
  | stopping => exact changed _ rfl rfl id
  | unset => exact hands_refl s
  | faulted => exact hands_refl s

/-! ### Outcomes, rests, expiries and cancellations (R91 to R99, R115) -/

theorem hands_decideEntry {s : State} {t : Trunk} {x : Entry} (mem : x ∈ s.list t) (o : AttemptOutcome) :
    Hands s (s.decideEntry t (x.record o) o) := by
  have ends : ∀ (u : State) (c : ResultCode), u.list t = s.list t → Hands u (u.finishEntry t (x.record o) c s.now) :=
    fun u c list => hands_finishEntry (x := x.record o) ⟨x, list ▸ mem, rfl, rfl⟩ c _
  have stays : ∀ (c : Condition) (retry : Bool), Hands s (keeping s t x.index o c retry) :=
    fun c retry => hands_updateEntry s t _ fun _ => rfl
  rw [decideEntry_eq]
  split
  · unfold toggled
    split
    · have flipped : Hands s (s.flipToggle t x.copy.dest) := hands_setSched rfl rfl
      exact hands_trans flipped (ends (s.flipToggle t x.copy.dest) _ rfl)
    · exact ends s _ rfl
  · exact stays _ _

theorem hands_outcome (s : State) (t : Trunk) (i : Nat) (o : AttemptOutcome) : Hands s (s.outcome t i o) := by
  unfold State.outcome
  split
  · cases found : s.findEntry t i with
    | none => exact hands_refl s
    | some x =>
      exact hands_trans (hands_trans (hands_decideEntry (findEntry_mem found) o) (hands_select _ t)) (hands_stopIfClear _ t)
  · exact hands_refl s

theorem hands_endRest (s : State) (t : Trunk) (i : Nat) : Hands s (s.endRest t i) :=
  hands_trans (hands_updateEntry s t i (f := fun e => { e with condition := .waiting }) fun _ => rfl) (hands_select _ t)

theorem hands_expireEntry {s : State} {t : Trunk} {x : Entry} (mem : x ∈ s.list t) : Hands s (s.expireEntry t x) := by
  unfold State.expireEntry
  split
  · exact hands_updateEntry s t _ fun _ => rfl
  · split
    · exact hands_updateEntry s t _ fun _ => rfl
    · exact hands_trans (hands_finishEntry ⟨x, mem, rfl, rfl⟩ _ _) (hands_select _ t)

theorem hands_cancelEntry {s : State} {t : Trunk} {x : Entry} (mem : x ∈ s.list t) : Hands s (s.cancelEntry t x) := by
  have marked : Hands s (if x.endMark = .none then s.updateEntry t x.index (fun y => { y with endMark := .cancelled })
      else s) := by
    split
    · exact hands_updateEntry s t _ fun _ => rfl
    · exact hands_refl s
  unfold State.cancelEntry
  dsimp only
  split
  · split
    · exact hands_trans marked (hands_updateRepeat fun _ _ _ _ _ => ⟨rfl, rfl, id⟩)
    · exact marked
  · exact hands_trans (hands_finishEntry ⟨x, mem, rfl, rfl⟩ _ _) (hands_select _ t)

/-- An index that no list holds. -/
theorem trunkOf_none {s : State} {i : Nat} (none : s.trunkOf i = none) (o : Trunk) {e : Entry} (mem : e ∈ s.list o) :
    e.index ≠ i := by
  intro same
  have all : o ∈ trunks := by
    match o with
    | 0 => decide
    | 1 => decide
    | 2 => decide
    | 3 => decide
  have absent := List.find?_eq_none.1 none o all
  rw [Bool.not_eq_true, Option.isSome_eq_false_iff, Option.isNone_iff_eq_none] at absent
  exact List.find?_eq_none.1 absent e mem (beq_iff_eq.2 same)

theorem hands_sendCancel (s : State) (i : Nat) : Hands s (s.sendCancel i) := by
  unfold State.sendCancel
  cases trunk : s.trunkOf i with
  | some t =>
    dsimp only
    cases found : s.findEntry t i with
    | none => exact hands_refl s
    | some x => exact hands_cancelEntry (findEntry_mem found)
  | none =>
    dsimp only
    cases found : s.findRepeat i with
    | none => exact hands_refl s
    | some r =>
      refine ⟨fits_endRepeat s r _ _ _, conserves_endRepeat ⟨r, List.mem_of_find?_eq_some found, rfl⟩ ?_ _ _ _⟩
      intro o e he _
      rw [findRepeat_index found]
      exact trunkOf_none trunk o he

end Sys2Proof.Proofs

/-! SUPPORT. What an event of a trunk's engine, a frame that is accepted and a RELOAD make of the places of an index (O57;
R77, R125, R130, R160). -/

namespace Sys2Proof.Proofs

open Sys2Proof.Machine Sys2Proof.Laws Sys2Proof.Safety

/-! ### Frames and slots (R125, R130) -/

/-- The director's part changes, but not where an index stands with it. -/
theorem conserves_director {s v : State} (sched : v.sched = s.sched) (queue : v.results.queue = s.results.queue)
    (director : ∀ i, atDirector v.director i = atDirector s.director i) : Conserves s v := by
  refine conserves_of fun front sound => ?_
  have lists : ∀ o, v.list o = s.list o := fun o => congrArg (fun q : Scheduler => q.lists.get o) sched
  refine ⟨roundsInTable_keys sound.rounds (fun o => by rw [lists]) fun r hr inRound => ⟨r, ?_, rfl, rfl, inRound⟩,
    fun h => queue ▸ sound.ahead h, fun i => ?_⟩
  · rw [sched]
    exact hr
  · rw [holders_eq, holders_eq, director, queue, sched, inLists_of_ordinaries (s := s) (v := v) fun o => by rw [lists]]

/-- An index that is offered or a slot is one of both after an assignment (R130). -/
theorem assignFrom_places (w : List Trunk) (q : List QueuedFrame) (l : List Offered) (i : Nat) :
    (offersOf w q l).countP (fun o => o.index == i) + (framesOf w q l).countP (fun x => x.slot == some i)
      = l.countP (fun o => o.index == i) + q.countP (fun x => x.slot == some i) := by
  induction q generalizing w l with
  | nil => rfl
  | cons x q ih =>
    obtain ⟨y, v, m, taken, rest⟩ := assignFrom_cons w x l
    obtain ⟨frames, offers⟩ := rest q
    rw [frames, offers, List.countP_cons, List.countP_cons]
    have behind := ih v m
    rcases taken with ⟨_, rfl, _, rfl⟩ | ⟨_, _, rfl, _, rfl⟩ | ⟨_, _, _, rfl, _, rfl⟩
      | ⟨o, before, after, none, _, rfl, _, rfl, _, rfl⟩
    · omega
    · omega
    · omega
    · rw [List.countP_append] at behind
      have given : (({ x with slot := some o.index } : QueuedFrame).slot == some i) = (o.index == i) := Option.some_beq_some
      have lacked : (x.slot == some i) = false := by
        rw [none]
        rfl
      rw [List.countP_append, List.countP_cons, given, lacked, if_neg Bool.false_ne_true]
      omega

theorem conserves_assignSlots (s : State) : Conserves s s.assignSlots :=
  conserves_director rfl rfl fun i => assignFrom_places [] s.director.queue s.director.receiveList i

theorem hands_assignIfRunning (s : State) : Hands s s.assignIfRunning := by
  refine ⟨fits_assignIfRunning s, ?_⟩
  unfold State.assignIfRunning
  split
  · exact conserves_assignSlots s
  · exact conserves_refl s

/-- Only the duplicate tables and the listen tables change. -/
theorem hands_tables {s v : State} (elsewhere : SameElsewhere s v) (sched : v.sched = s.sched)
    (queue : v.results.queue = s.results.queue) (frames : v.director.queue = s.director.queue)
    (offers : v.director.receiveList = s.director.receiveList) : Hands s v where
  fits :=
    { elsewhere := elsewhere
      places := fun o fit => Nat.le_trans (placesTaken_of_length (same_sweeper elsewhere)
        (Nat.le_of_eq (congrArg (fun q : Scheduler => (q.lists.get o).length) sched))) fit
      repeats := by rw [sched]
      offers := by rw [offers]
      frames := by rw [frames]; exact id
      slots := by rw [frames]; exact fun _ => id
      stopping := fun _ => offers
      front := fun _ w hw => by rw [queue]; exact hw }
  conserves := conserves_director sched queue fun i => by rw [atDirector, atDirector, frames, offers]

/-- A frame joins the end of the queue of frames, without a slot (R125). -/
theorem hands_joinFrame {s : State} {x : QueuedFrame} (slotless : x.slot = none) (room : s.director.queue.length < 6) :
    Hands s (s.setFrames (s.director.queue ++ [x])) where
  fits :=
    { elsewhere := (keeps_setFrames s _).1
      places := fun _ => id
      repeats := Nat.le_refl _
      offers := Nat.le_refl _
      frames := fun _ => by
        show (s.director.queue ++ [x]).length ≤ 6
        rw [List.length_append]
        exact room
      slots := fun i ⟨q, mem, slot⟩ => ⟨q, List.mem_append_left _ mem, slot⟩
      stopping := fun _ => rfl
      front := fun _ _ => id }
  conserves := conserves_director rfl rfl fun i => by
    show _ + (s.director.queue ++ [x]).countP _ = _
    rw [List.countP_append, List.countP_singleton, slotless]
    rfl

theorem hands_rememberUnicast (s : State) (t : Trunk) (g : GoodFrame) : Hands s (s.rememberUnicast t g) := by
  unfold State.rememberUnicast
  split
  · exact hands_tables (keeps_setDirector s _).1 rfl rfl rfl rfl
  · exact hands_refl s

theorem hands_reportAcceptance (s : State) (t : Trunk) : Hands s (s.reportAcceptance t) := by
  unfold State.reportAcceptance
  split
  · exact hands_tables (keeps_refl s).1 rfl rfl rfl rfl
  · exact hands_refl s

theorem hands_acceptFrame {s : State} (room : s.director.queue.length < 6) (t : Trunk) (g : GoodFrame) :
    Hands s (s.acceptFrame t g) := by
  have known := hands_trans (hands_joinFrame (x := s.queuedFrame t g) rfl room) (hands_rememberUnicast _ t g)
  unfold State.acceptFrame
  dsimp only
  split
  · exact hands_trans known (hands_reportAcceptance _ t)
  · exact hands_trans known (hands_assignIfRunning _)

theorem hands_decideFrame (s : State) (t : Trunk) (g : GoodFrame) : Hands s (s.decideFrame t g).1 := by
  unfold State.decideFrame
  repeat' split
  · exact hands_refl s
  · exact hands_tally s t _
  · exact hands_acceptFrame (by assumption) t g
  · exact hands_trans (hands_tally s t _) (hands_raise _ _)
  · exact hands_tally s t _

/-! ### Ends of attempts and frames -/

theorem hands_attemptEnds (s : State) (t : Trunk) (o : AttemptOutcome) : Hands s (s.attemptEnds t o) := by
  unfold State.attemptEnds
  split
  · exact hands_refl s
  · exact hands_trans (hands_updateEngine s t _) (hands_outcome _ t _ o)

theorem hands_shapeInSending (s : State) (t : Trunk) : Hands s (s.shapeInSending t) :=
  hands_trans (hands_trans (hands_updateEngine s t _) (hands_tally _ t _)) (hands_attemptEnds _ t _)

theorem hands_abandonFrame (s : State) (t : Trunk) : Hands s (s.abandonFrame t) :=
  hands_trans (hands_trans (hands_updateEngine s t _) (hands_tally _ t _)) (hands_select _ t)

theorem hands_foreignFrameEnds (s : State) (t : Trunk) : Hands s (s.foreignFrameEnds t) :=
  hands_trans (hands_updateEngine s t _) (hands_select _ t)

theorem hands_settleReply (s : State) (t : Trunk) (o : AttemptOutcome) : Hands s (s.settleReply t o) := by
  unfold State.settleReply
  split
  · exact hands_trans (hands_tally s t _) (hands_attemptEnds _ t o)
  · exact hands_attemptEnds s t o

/-! ### Edges and leads -/

theorem hands_lostAtFall (s : State) (t : Trunk) : Hands s (s.lostAtFall t) := by
  unfold State.lostAtFall
  split
  · exact hands_updateEngine s t _
  · exact hands_trans (hands_trans (hands_updateEngine s t _) (hands_tally _ t _)) (hands_outcome _ t _ _)

theorem hands_goodFrameAtRise (s : State) (t : Trunk) : Hands s (s.goodFrameAtRise t) := by
  have decided := fun f g => hands_trans (hands_updateEngine s t f) (hands_decideFrame _ t g)
  unfold State.goodFrameAtRise
  dsimp only
  split
  · exact hands_trans (decided _ _) (hands_updateEngine _ t _)
  · exact hands_trans (decided _ _) (hands_foreignFrameEnds _ t)

theorem hands_tailAtRise (s : State) (t : Trunk) : Hands s (s.tailAtRise t) := by
  have counted := fun f => hands_trans (hands_updateEngine s t f) (hands_tally _ t Tally.addSent)
  unfold State.tailAtRise
  dsimp only
  split
  · exact hands_trans (counted _) (hands_updateEngine _ t _)
  · exact hands_trans (hands_trans (counted _) (hands_updateEngine _ t _)) (hands_attemptEnds _ t _)

theorem hands_takeEdge (s : State) (t : Trunk) (l : Level) : Hands s (s.takeEdge t l) := by
  unfold State.takeEdge
  split
  · exact hands_updateEngine s t _
  · exact hands_lostAtFall s t
  · exact hands_trans (hands_trans (hands_updateEngine s t _) (hands_shapeInSending _ t)) (hands_updateEngine _ t _)
  · exact hands_trans (hands_trans (hands_updateEngine s t _) (hands_abandonFrame _ t)) (hands_updateEngine _ t _)
  · exact hands_goodFrameAtRise s t
  · exact hands_tailAtRise s t

theorem hands_startLead (s : State) (t : Trunk) (e : Entry) : Hands s (s.startLead t e) :=
  hands_trans (hands_updateEntry s t e.index (f := Entry.started) fun _ => rfl) (hands_updateEngine _ t _)

theorem hands_holdExpires (s : State) (t : Trunk) : Hands s (s.holdExpires t) := by
  have again := hands_trans (hands_withdraw s t) (hands_select _ t)
  unfold State.holdExpires
  split
  · exact hands_startLead s t _
  · dsimp only
    split
    · split
      · exact hands_trans again (hands_startLead _ t _)
      · exact again
    · exact again

theorem hands_trunkGoesOff (s : State) (t : Trunk) : Hands s (s.trunkGoesOff t) :=
  hands_trans (hands_updateEngine s t _) (hands_takeOffReport _ t)

theorem hands_stuckEvent (s : State) (t : Trunk) : Hands s (s.stuckEvent t) :=
  hands_trans (hands_trans (hands_updateEngine s t _) (hands_tally _ t _)) (hands_raise _ _)

theorem hands_recoverTrunk (s : State) (t : Trunk) : Hands s (s.recoverTrunk t) :=
  hands_trans (hands_updateEngine s t _) (hands_raise _ _)

/-! ### RELOAD (R160) -/

theorem hands_reloadMode (s : State) (t : Trunk) (m : Mode) : Hands s (s.reloadMode t m) := by
  have withdrawn := fun f => hands_trans (hands_withdraw s t) (hands_updateEngine _ t f)
  unfold State.reloadMode
  split
  · exact hands_refl s
  · exact hands_updateEngine s t _
  · exact hands_updateEngine s t _
  · exact withdrawn _
  · exact withdrawn _
  · exact hands_updateEngine s t _

theorem hands_reloadTrunk (s : State) (t : Trunk) (r : TrunkRecord) : Hands s (s.reloadTrunk t r) := by
  have modes := hands_trans (hands_updateEngine s t (fun e => e.reloadTiming r.timing)) (hands_reloadMode _ t r.mode)
  have tables : ∀ v : State, Hands v ((v.reloadListen t r.listen).reloadSched t r) := fun v =>
    hands_trans (hands_tables (v := v.reloadListen t r.listen) (keeps_setDirector v _).1 rfl rfl rfl rfl)
      (hands_setSched rfl rfl)
  unfold State.reloadTrunk
  dsimp only
  split
  · exact hands_trans (hands_trans modes (tables _)) (hands_select _ t)
  · exact hands_trans modes (tables _)

theorem hands_offAtOnce (s : State) (t : Trunk) : Hands s (s.offAtOnce t) := by
  unfold State.offAtOnce
  split
  · exact hands_trunkGoesOff s t
  · exact hands_refl s

theorem hands_offsAtOnce (s : State) : Hands s (offsAtOnce s) :=
  hands_trans (hands_trans (hands_trans (hands_offAtOnce s 0) (hands_offAtOnce _ 1)) (hands_offAtOnce _ 2))
    (hands_offAtOnce _ 3)

theorem hands_handSettings (s : State) (v : Settings) : Hands (settingsTaken s v) (s.handSettings v) :=
  hands_trans (hands_trans (hands_trans (hands_reloadTrunk (settingsTaken s v) 0 _) (hands_reloadTrunk _ 1 _))
    (hands_reloadTrunk _ 2 _)) (hands_reloadTrunk _ 3 _)

/-! ### STOP (R97, R104, R136, R161) -/

/-- The queue of frames closes: those with a slot stay (R136). -/
theorem hands_closeQueue (s : State) : Hands s s.closeQueue := by
  have frames : (s.director.queue.filter (fun q => q.slot.isSome)).length ≤ s.director.queue.length :=
    List.length_filter_le _ _
  have slots : ∀ i, s.director.queue.countP (fun q => q.slot == some i && q.slot.isSome)
      = s.director.queue.countP (fun q => q.slot == some i) := by
    intro i
    refine List.countP_congr fun q _ => ?_
    rw [Bool.and_eq_true, beq_iff_eq]
    exact ⟨fun h => h.1, fun h => ⟨h, by rw [h]; rfl⟩⟩
  rw [closeQueue_eq]
  exact
    { fits :=
        { elsewhere := (keeps_refl s).1
          places := fun _ => id
          repeats := Nat.le_refl _
          offers := Nat.le_refl _
          frames := fun fit => Nat.le_trans frames fit
          slots := fun i ⟨q, mem, slot⟩ => ⟨q, List.mem_filter.2 ⟨mem, by rw [slot]; rfl⟩, slot⟩
          stopping := fun _ => rfl
          front := fun _ _ => id }
      conserves := conserves_director rfl rfl fun i => by
        unfold atDirector
        rw [List.countP_filter, slots] }

/-- Where each trunk's part holds each entry once, the whole does. -/
theorem nodup_of_parts {l : List Marked} (parts : ∀ o, (partOf l o).Nodup) : l.Nodup := by
  induction l with
  | nil => exact List.nodup_nil
  | cons m ms ih =>
    have own := parts m.1
    rw [partOf_cons, if_pos rfl, List.nodup_cons, partOf_mem] at own
    refine List.nodup_cons.2 ⟨own.1, ih fun o => ?_⟩
    have part := parts o
    rw [partOf_cons] at part
    split at part
    · exact (List.nodup_cons.1 part).2
    · exact part

/-- Entries of the lists that are in order each once stand in places of their own. -/
theorem nodup_markKeys {s : State} {l : List Marked} (distinct : ∀ o, ((s.list o).map Entry.index).Nodup)
    (members : ∀ m ∈ l, m.2 ∈ s.list m.1) (parts : ∀ o, (partOf l o).Nodup) : (l.map markKey).Nodup := by
  refine List.Nodup.map_on (fun m hm k hk same => ?_) (nodup_of_parts parts)
  obtain ⟨trunk, index⟩ := Prod.mk.inj same
  have here := members k hk
  rw [← trunk] at here
  exact Prod.ext trunk (List.inj_on_of_nodup_map (distinct m.1) (members m hm) here index)

/-- Marked entries end in the order of R97, each once. -/
theorem conserves_marked {s u : State} (lists : ∀ o, u.list o = s.list o) : Conserves u (finishMarked s.marked u) := by
  intro front sound
  have distinct : ∀ o, ((s.list o).map Entry.index).Nodup := fun o => lists o ▸ (sound.rounds o).1
  have members : ∀ m ∈ s.marked, m.2 ∈ s.list m.1 := fun m hm => ((mem_marked s m).1 hm).1
  exact conserves_finishMarked (fun m hm => ⟨m.2, lists m.1 ▸ members m hm, rfl, rfl⟩)
    (nodup_markKeys distinct members fun o => partOf_marked_nodup (distinct o)) front sound

theorem partOf_filter (l : List Marked) (p : Entry → Bool) (o : Trunk) :
    partOf (l.filter (fun m => p m.2)) o = (partOf l o).filter p := by
  induction l with
  | nil => rfl
  | cons m ms ih =>
    rw [List.filter_cons, partOf_cons]
    split
    · rename_i kept
      rw [partOf_cons, ih]
      split
      · rw [List.filter_cons_of_pos kept]
      · rfl
    · rename_i gone
      rw [ih]
      split
      · rw [List.filter_cons_of_neg gone]
      · rfl

/-- The order at STOP holds each entry of a trunk once. -/
theorem partOf_stopOrder_nodup {s : State} (distinct : ∀ o, ((s.list o).map Entry.index).Nodup) (o : Trunk) :
    (partOf s.stopOrder o).Nodup := by
  obtain ⟨_, plain, _⟩ := stopOrder_endsAtStop distinct
  have whole : (unmarked s o).Nodup := (List.Nodup.of_map _ (distinct o)).filter _
  rw [← plain o] at whole
  have stamped : ((partOf s.stopOrder o).filter (fun x => x.stamp.isSome)).Nodup := by
    rw [← partOf_filter, stopOrder_marked]
    exact partOf_marked_nodup (distinct o)
  have bare := (List.nodup_append.1 whole).1
  rw [List.nodup_iff_count_le_one] at stamped bare ⊢
  intro x
  by_cases h : x.stamp.isSome = true
  · have one := stamped x
    rw [List.count_filter (p := fun x : Entry => x.stamp.isSome) h] at one
    exact one
  · have one := bare x
    rw [Bool.not_eq_true, Option.isSome_eq_false_iff] at h
    rw [List.count_filter (p := fun x : Entry => x.stamp.isNone) h] at one
    exact one

theorem conserves_stopOrder {s u : State} (lists : ∀ o, u.list o = s.list o) :
    Conserves u (finishAtStop s.stopOrder u) := by
  intro front sound
  have distinct : ∀ o, ((s.list o).map Entry.index).Nodup := fun o => lists o ▸ (sound.rounds o).1
  have members : ∀ m ∈ s.stopOrder, m.2 ∈ s.list m.1 := fun m hm => mem_of_stopOrder hm
  exact conserves_finishAtStop (fun m hm => ⟨m.2, lists m.1 ▸ members m hm, rfl, rfl⟩)
    (nodup_markKeys distinct members fun o => partOf_stopOrder_nodup distinct o) front sound

end Sys2Proof.Proofs

/-! SUPPORT. Every collection keeps within its places, move by move (O57, first part; R74, R75, R82, R108, R110, R125). -/

namespace Sys2Proof.Proofs

open Sys2Proof.Machine Sys2Proof.Laws Sys2Proof.Safety

/-! ### Room, and the claim that is decided on -/

/-- Every collection keeps within its places, reserved places counted as taken. -/
structure Roomy (s : State) : Prop where
  places : ∀ o, s.placesTaken o ≤ 16
  repeats : s.repeatsTaken ≤ 8
  offers : s.director.receiveList.length ≤ 32
  frames : s.director.queue.length ≤ 6

theorem withinPlaces_iff (s : State) : WithinPlaces s ↔ Roomy s ∧ ClaimHasRoom s :=
  ⟨fun ⟨a, b, c, d, e⟩ => ⟨⟨a, b, c, d⟩, e⟩, fun ⟨⟨a, b, c, d⟩, e⟩ => ⟨a, b, c, d, e⟩⟩

/-- What a stage needs of the reservation and of the receive list (R74, R75). -/
def StageFits (g : SweepStage) (reservation : Option Place) (offers : Nat) : Prop :=
  (∀ c, g = .claim (.send c) → reservation = some (.list c.trunk))
    ∧ (∀ c p, g = .claim (.repeating c p) → reservation = some .repeatTable)
    ∧ ∀ m, g = .claim (.receive m) → offers < 32

theorem claimHasRoom_iff (s : State) : ClaimHasRoom s ↔
    ∀ w, s.sweeper.sweep = some w → StageFits w.stage s.sweeper.reservation s.director.receiveList.length := by
  unfold ClaimHasRoom StageFits
  cases sweep : s.sweeper.sweep with
  | none => exact ⟨fun _ w h => (nomatch h), fun _ => trivial⟩
  | some w =>
    dsimp only
    cases stage : w.stage with
    | word0 => exact ⟨fun _ v h => by cases h; rw [stage]; exact ⟨nofun, nofun, nofun⟩, fun _ => trivial⟩
    | envelope => exact ⟨fun _ v h => by cases h; rw [stage]; exact ⟨nofun, nofun, nofun⟩, fun _ => trivial⟩
    | word1 => exact ⟨fun _ v h => by cases h; rw [stage]; exact ⟨nofun, nofun, nofun⟩, fun _ => trivial⟩
    | claim c =>
      cases c with
      | send copy =>
        exact ⟨fun k v h => by
          cases h
          rw [stage]
          exact ⟨fun c e => by cases e; exact k, nofun, nofun⟩, fun k => (k w rfl).1 copy stage⟩
      | repeating copy p =>
        exact ⟨fun k v h => by
          cases h
          rw [stage]
          exact ⟨nofun, fun c p e => by cases e; exact k, nofun⟩, fun k => (k w rfl).2.1 copy p stage⟩
      | receive m =>
        exact ⟨fun k v h => by
          cases h
          rw [stage]
          exact ⟨nofun, nofun, fun m e => by cases e; exact k⟩, fun k => (k w rfl).2.2 m stage⟩

theorem stageFits_read {g : SweepStage} (read : ∀ c, g ≠ .claim c) (r : Option Place) (n : Nat) : StageFits g r n :=
  ⟨fun _ h => absurd h (read _), fun _ _ h => absurd h (read _), fun _ h => absurd h (read _)⟩

/-! ### Moves of one part -/

theorem roomy_of {s v : State} (roomy : Roomy s) (lists : v.sched.lists = s.sched.lists)
    (repeats : v.sched.repeats = s.sched.repeats)
    (offers : v.director.receiveList.length ≤ s.director.receiveList.length)
    (frames : v.director.queue.length ≤ s.director.queue.length)
    (reservation : v.sweeper.reservation = s.sweeper.reservation) : Roomy v where
  places := fun o => by
    have places := roomy.places o
    unfold State.placesTaken State.list at places ⊢
    rw [lists, reservation]
    exact places
  repeats := by
    have places := roomy.repeats
    unfold State.repeatsTaken at places ⊢
    rw [repeats, reservation]
    exact places
  offers := Nat.le_trans offers roomy.offers
  frames := Nat.le_trans frames roomy.frames

/-- Collections lose at most, and a claim that is decided on was so before. -/
theorem withinPlaces_of {s v : State} (within : WithinPlaces s) (lists : v.sched.lists = s.sched.lists)
    (repeats : v.sched.repeats = s.sched.repeats)
    (offers : v.director.receiveList.length ≤ s.director.receiveList.length)
    (frames : v.director.queue.length ≤ s.director.queue.length)
    (reservation : v.sweeper.reservation = s.sweeper.reservation)
    (claims : ∀ w c, v.sweeper.sweep = some w → w.stage = .claim c → ∃ u, s.sweeper.sweep = some u ∧ u.stage = w.stage) :
    WithinPlaces v := by
  rw [withinPlaces_iff] at within ⊢
  obtain ⟨roomy, room⟩ := within
  refine ⟨roomy_of roomy lists repeats offers frames reservation, ?_⟩
  rw [claimHasRoom_iff] at room ⊢
  intro w hw
  by_cases claim : ∃ c, w.stage = .claim c
  · obtain ⟨c, hc⟩ := claim
    obtain ⟨u, hu, stage⟩ := claims w c hw hc
    obtain ⟨send, repeating, receive⟩ := room u hu
    rw [stage] at send repeating receive
    rw [reservation]
    exact ⟨send, repeating, fun m h => Nat.lt_of_le_of_lt offers (receive m h)⟩
  · exact stageFits_read (fun c h => claim ⟨c, h⟩) _ _

/-- Nothing that has a place changes. -/
theorem withinPlaces_same {s v : State} (within : WithinPlaces s) (sched : v.sched = s.sched)
    (director : v.director = s.director) (reservation : v.sweeper.reservation = s.sweeper.reservation)
    (sweep : v.sweeper.sweep = s.sweeper.sweep) : WithinPlaces v :=
  withinPlaces_of within (by rw [sched]) (by rw [sched]) (by rw [director]) (by rw [director]) reservation
    fun w _ h _ => ⟨w, sweep ▸ h, rfl⟩

theorem roomy_fits {s v : State} (h : Fits s v) (roomy : Roomy s) : Roomy v where
  places := fun o => h.places o (roomy.places o)
  repeats := by
    have repeats := roomy.repeats
    have length := h.repeats
    unfold State.repeatsTaken at repeats ⊢
    rw [same_sweeper h.elsewhere]
    omega
  offers := Nat.le_trans h.offers roomy.offers
  frames := h.frames roomy.frames

theorem withinPlaces_fits {s v : State} (h : Fits s v) (within : WithinPlaces s) : WithinPlaces v := by
  rw [withinPlaces_iff] at within ⊢
  obtain ⟨roomy, room⟩ := within
  refine ⟨roomy_fits h roomy, ?_⟩
  rw [claimHasRoom_iff] at room ⊢
  rw [same_sweeper h.elsewhere]
  intro w hw
  obtain ⟨send, repeating, receive⟩ := room w hw
  exact ⟨send, repeating, fun m k => Nat.lt_of_le_of_lt h.offers (receive m k)⟩

/-! ### The sweeper's decisions (R70 to R79) -/

/-- The handling of an index ends: the sweeper goes to a word 0 read or to no sweep, and the header writer may have a unit
more. -/
theorem indexHandled_eq (s : State) : ∃ (y : Sweeper) (h : List HeaderUnit),
    s.indexHandled = (s.setSweeper y).setHeader h ∧ y.held = s.sweeper.held ∧ y.cursor = s.sweeper.cursor
      ∧ y.reservation = s.sweeper.reservation
      ∧ ∀ w, y.sweep = some w → w.stage = .word0
        ∧ (w.index = s.sweeper.cursor
          ∨ ∃ u, s.sweeper.sweep = some u ∧ nextIndex s.session.n s.session.f u.start u.index = some w.index) := by
  unfold State.indexHandled
  cases sweep : s.sweeper.sweep with
  | none => exact ⟨s.sweeper, s.header, rfl, rfl, rfl, rfl, fun w h => by rw [sweep] at h; cases h⟩
  | some u =>
    dsimp only
    split
    · exact ⟨{ s.sweeper with sweep := none }, s.header, rfl, rfl, rfl, rfl, nofun⟩
    · split
      · rename_i i next
        exact ⟨{ s.sweeper with sweep := some { u with index := i, stage := .word0 } }, s.header, rfl, rfl, rfl, rfl,
          fun w h => by cases h; exact ⟨rfl, .inr ⟨u, rfl, next⟩⟩⟩
      · unfold State.sweepEnds
        dsimp only
        split
        · refine ⟨{ s.sweeper with
              count := s.sweeper.count + 1, again := false, timer := 0, target := s.sweeper.period, timerRuns := true
              sweep := some { start := s.sweeper.cursor, index := s.sweeper.cursor, stage := .word0, cut := false } },
            s.header ++ [.sweepEnd s.now (s.sweeper.count + 1)], rfl, rfl, rfl, rfl, fun w h => ?_⟩
          obtain rfl := Option.some.inj h
          exact ⟨rfl, .inl rfl⟩
        · exact ⟨{ s.sweeper with count := s.sweeper.count + 1, sweep := none, again := false },
            s.header ++ [.sweepEnd s.now (s.sweeper.count + 1)], rfl, rfl, rfl, rfl, nofun⟩

theorem within_indexHandled {s : State} (roomy : Roomy s) : WithinPlaces s.indexHandled := by
  obtain ⟨y, h, eq, _, _, reservation, stage⟩ := indexHandled_eq s
  rw [eq, withinPlaces_iff, claimHasRoom_iff]
  refine ⟨roomy_of roomy rfl rfl (Nat.le_refl _) (Nat.le_refl _) reservation, fun w hw => ?_⟩
  exact stageFits_read (fun c k => by rw [(stage w hw).1] at k; cases k) _ _

theorem within_setStage {s : State} (roomy : Roomy s) {g : SweepStage}
    (fits : s.sweeper.sweep ≠ none → StageFits g s.sweeper.reservation s.director.receiveList.length) :
    WithinPlaces (s.setStage g) := by
  rw [withinPlaces_iff, claimHasRoom_iff]
  refine ⟨roomy_of roomy rfl rfl (Nat.le_refl _) (Nat.le_refl _) rfl, fun w hw => ?_⟩
  have set : s.sweeper.sweep.map (fun w => { w with stage := g }) = some w := hw
  obtain ⟨u, sweep, rfl⟩ := Option.map_eq_some_iff.1 set
  exact fits (by rw [sweep]; exact nofun)

theorem roomy_rejectIndex {s : State} (roomy : Roomy s) (i : Nat) (c : ResultCode) : Roomy (s.rejectIndex i c) :=
  roomy_of roomy rfl rfl (Nat.le_refl _) (Nat.le_refl _) rfl

theorem roomy_cancelIndex {s : State} (roomy : Roomy s) (i : Nat) : Roomy (s.cancelIndex i) :=
  roomy_of roomy rfl rfl (Nat.le_refl _) (Nat.le_refl _) rfl

theorem roomy_passCancel {s : State} (roomy : Roomy s) (i : Nat) : Roomy (s.passCancel i) := by
  unfold State.passCancel
  split
  · exact roomy_fits (hands_sendCancel s i).fits roomy
  · unfold State.receiveCancel
    split
    · exact roomy_of roomy rfl rfl (List.length_filter_le _ _) (Nat.le_refl _) rfl
    · exact roomy

theorem within_word0Read {s : State} (within : WithinPlaces s) (bs : List Byte) : WithinPlaces (s.word0Read bs) := by
  have roomy := ((withinPlaces_iff s).1 within).1
  have handled := within_indexHandled roomy
  have rejected := fun i c => within_indexHandled (roomy_rejectIndex roomy i c)
  have staged : ∀ g : SweepStage, (∀ c, g ≠ .claim c) → WithinPlaces (s.setStage g) := fun g read =>
    within_setStage roomy fun _ => stageFits_read read _ _
  unfold State.word0Read
  split
  · exact within
  · split
    · refine within_indexHandled ?_
      split
      · exact roomy_passCancel roomy _
      · exact roomy
    · split
      · unfold State.sendWord0
        repeat' split
        · exact rejected _ _
        · exact within_indexHandled (roomy_cancelIndex roomy _)
        · exact handled
        · exact staged _ nofun
        · exact handled
      · unfold State.receiveWord0
        repeat' split
        · exact rejected _ _
        · exact rejected _ _
        · exact staged _ nofun
        · exact handled

/-- A place that is free is reserved (R74, R108). -/
theorem within_reserve {s : State} (roomy : Roomy s) (t : Trunk) {p : Place} {c : Claim}
    (places : ∀ o, (s.list o).length + (if some p = some (.list o) then 1 else 0) ≤ 16)
    (repeats : s.sched.repeats.length + (if some p = some .repeatTable then 1 else 0) ≤ 8)
    (fits : StageFits (.claim c) (some p) s.director.receiveList.length) : WithinPlaces (s.reserve t p c) :=
  within_setStage (s := (s.setOffDone t false).setSweeper { s.sweeper with reservation := some p })
    ⟨places, repeats, roomy.offers, roomy.frames⟩ fun _ => fits

theorem length_le_placesTaken (s : State) (o : Trunk) : (s.list o).length ≤ s.placesTaken o := Nat.le_add_right _ _

theorem length_le_repeatsTaken (s : State) : s.sched.repeats.length ≤ s.repeatsTaken := Nat.le_add_right _ _

theorem within_roomTest {s : State} (roomy : Roomy s) (i : Nat) (e : SendFields) : WithinPlaces (s.roomTest i e) := by
  have lists := fun o => Nat.le_trans (length_le_placesTaken s o) (roomy.places o)
  have table := Nat.le_trans (length_le_repeatsTaken s) roomy.repeats
  unfold State.roomTest
  split
  · split
    · rename_i room
      have room' : s.repeatsTaken < 8 := room
      refine within_reserve roomy _ (fun o => ?_) ?_ ⟨nofun, fun _ _ _ => rfl, nofun⟩
      · rw [if_neg (by simp)]
        exact lists o
      · rw [if_pos rfl]
        exact Nat.lt_of_le_of_lt (length_le_repeatsTaken s) room'
    · exact within_indexHandled (roomy_rejectIndex roomy _ _)
  · split
    · rename_i place
      have room : s.placesTaken e.trunkNo < 16 := of_decide_eq_true place
      refine within_reserve roomy _ (fun o => ?_) ?_ ⟨fun c h => ?_, nofun, nofun⟩
      · split
        · rename_i same
          obtain rfl : e.trunkNo = o := by
            simp only [Option.some.injEq, Place.list.injEq] at same
            exact same
          exact Nat.lt_of_le_of_lt (length_le_placesTaken s e.trunkNo) room
        · exact lists o
      · rw [if_neg (by simp)]
        exact table
      · cases h
        rfl
    · exact within_indexHandled roomy

theorem within_envelopeRead {s : State} (within : WithinPlaces s) (bs : List Byte) : WithinPlaces (s.envelopeRead bs) := by
  have roomy := ((withinPlaces_iff s).1 within).1
  unfold State.envelopeRead
  repeat' split
  · exact within
  · exact within_indexHandled roomy
  · exact within_indexHandled (roomy_cancelIndex roomy _)
  · exact within_indexHandled roomy
  · exact within_indexHandled (roomy_rejectIndex roomy _ _)
  · exact within_roomTest roomy _ _

theorem within_word1Read {s : State} (within : WithinPlaces s) (bs : List Byte) : WithinPlaces (s.word1Read bs) := by
  have roomy := ((withinPlaces_iff s).1 within).1
  unfold State.word1Read
  repeat' split
  · exact within
  · rename_i room
    exact within_setStage roomy fun _ => ⟨nofun, nofun, fun _ _ => room⟩
  · exact within_indexHandled roomy
  · exact within_indexHandled (roomy_rejectIndex roomy _ _)

/-! ### Claims (R74, R75, R108) -/

/-- A send-side claim takes the place that was reserved for it. -/
theorem roomy_claimSend {s : State} (roomy : Roomy s) (i : Nat) : Roomy (s.claimSend i) where
  places := fun o => Nat.le_trans (length_le_placesTaken s o) (roomy.places o)
  repeats := Nat.le_trans (length_le_repeatsTaken s) roomy.repeats
  offers := roomy.offers
  frames := roomy.frames

theorem fits_joinRepeat (s : State) (i : Nat) (c : SendCopy) (p : Nat) :
    Fits (s.setRepeats (s.sched.repeats ++ [newRepeat i c p s.now])) (s.joinRepeat i c p) := by
  rw [joinRepeat_eq]
  split
  · exact fits_endRepeat _ _ _ _ _
  · exact fits_dueTimeOf _ _

theorem within_claimWritten {s : State} (within : WithinPlaces s) : WithinPlaces s.claimWritten := by
  obtain ⟨roomy, room⟩ := (withinPlaces_iff s).1 within
  rw [claimHasRoom_iff] at room
  unfold State.claimWritten
  cases sweep : s.sweeper.sweep with
  | none => exact within
  | some w =>
    obtain ⟨send, repeating, receive⟩ := room w sweep
    dsimp only
    split
    · rename_i copy stage
      refine within_indexHandled (roomy_fits (fits_joinEntry ?_) (roomy_claimSend roomy w.index))
      have taken := roomy.places copy.trunk
      unfold State.placesTaken at taken
      rw [send copy stage, if_pos rfl] at taken
      have length : (s.claimSend w.index).placesTaken copy.trunk = (s.list copy.trunk).length := rfl
      omega
    · rename_i copy p stage
      refine within_indexHandled (roomy_fits (fits_joinRepeat (s.claimSend w.index) w.index copy p) ?_)
      have taken := roomy.repeats
      unfold State.repeatsTaken at taken
      rw [repeating copy p stage, if_pos rfl] at taken
      have claimed := roomy_claimSend roomy w.index
      refine ⟨claimed.places, ?_, claimed.offers, claimed.frames⟩
      show (s.sched.repeats ++ [newRepeat w.index copy p s.now]).length + 0 ≤ 8
      rw [List.length_append]
      exact taken
    · rename_i m stage
      refine within_indexHandled (roomy_fits (fits_assignIfRunning _) ⟨roomy.places, roomy.repeats, ?_, roomy.frames⟩)
      show (s.director.receiveList ++ [_]).length ≤ 32
      rw [List.length_append]
      exact receive m stage
    · exact within
    · exact within
    · exact within

/-! ### The completion of an access -/

theorem within_stateWritten {s : State} (within : WithinPlaces s) (k : UnitKind) : WithinPlaces (s.stateWritten k) := by
  have same : ∀ i, WithinPlaces (s.unhold i) := fun i => withinPlaces_same within rfl rfl rfl rfl
  cases k with
  | completion i c => exact same i
  | filled i c =>
    unfold State.stateWritten State.frameWritten
    dsimp only
    split
    · exact same i
    · exact withinPlaces_of within rfl rfl (Nat.le_refl _) (List.length_filter_le _ _) rfl fun w _ h _ => ⟨w, h, rfl⟩
  | roundResult _ => exact within
  | giveBack _ => exact within
  | header _ => exact within
  | sweeper => exact within

theorem countWritten_same (s : State) (c : Half) : (s.countWritten c).sched = s.sched
    ∧ (s.countWritten c).director = s.director ∧ (s.countWritten c).sweeper = s.sweeper := by
  unfold State.countWritten
  dsimp only
  split
  · exact ⟨rfl, rfl, rfl⟩
  · exact ⟨rfl, rfl, rfl⟩

theorem within_countWritten {s : State} (within : WithinPlaces s) (c : Half) : WithinPlaces (s.countWritten c) := by
  obtain ⟨sched, director, sweeper⟩ := countWritten_same s c
  exact withinPlaces_same within sched director (by rw [sweeper]) (by rw [sweeper])

theorem completeCheck_same (s : State) : s.completeCheck.sched = s.sched
    ∧ s.completeCheck.director = s.director ∧ s.completeCheck.sweeper = s.sweeper := by
  unfold State.completeCheck
  split
  · exact ⟨rfl, rfl, rfl⟩
  · exact ⟨rfl, rfl, rfl⟩

theorem within_completeCheck {s : State} (within : WithinPlaces s) : WithinPlaces s.completeCheck := by
  obtain ⟨sched, director, sweeper⟩ := completeCheck_same s
  exact withinPlaces_same within sched director (by rw [sweeper]) (by rw [sweeper])

theorem within_countUnitDone {s : State} (within : WithinPlaces s) (k : UnitKind) : WithinPlaces (s.countUnitDone k) := by
  cases k with
  | completion i c => exact within_countWritten (s := s.dequeue) (withinPlaces_same within rfl rfl rfl rfl) c
  | filled i c => exact within_countWritten within c
  | roundResult _ => exact within
  | giveBack _ => exact within
  | header _ => exact within
  | sweeper => exact within

theorem within_givenBack {s : State} (within : WithinPlaces s) (k : UnitKind) : WithinPlaces (s.givenBack k) := by
  cases k with
  | giveBack i =>
    exact withinPlaces_of within rfl rfl (List.length_filter_le _ _) (Nat.le_refl _) rfl fun w _ h _ => ⟨w, h, rfl⟩
  | completion _ _ => exact within
  | filled _ _ => exact within
  | roundResult _ => exact within
  | header _ => exact within
  | sweeper => exact within

/-- With nothing pending, repeating, offered or received, and no sweep, everything has its place. -/
theorem withinPlaces_empty {s : State} (lists : ∀ o, s.list o = []) (repeats : s.sched.repeats = [])
    (offers : s.director.receiveList = []) (frames : s.director.queue = []) (reservation : s.sweeper.reservation = none)
    (sweep : s.sweeper.sweep = none) : WithinPlaces s := by
  rw [withinPlaces_iff, claimHasRoom_iff]
  refine ⟨⟨fun o => ?_, ?_, ?_, ?_⟩, fun w hw => by rw [sweep] at hw; cases hw⟩
  · unfold State.placesTaken
    rw [lists, reservation, if_neg nofun]
    exact Nat.zero_le _
  · unfold State.repeatsTaken
    rw [repeats, reservation, if_neg nofun]
    exact Nat.zero_le _
  · rw [offers]
    exact Nat.zero_le _
  · rw [frames]
    exact Nat.zero_le _

theorem within_startRead {s : State} (within : WithinPlaces s) (bs : List Byte) : WithinPlaces (s.startRead bs) := by
  unfold State.startRead
  split
  · exact withinPlaces_same within rfl rfl rfl rfl
  · exact withinPlaces_empty (fun o => get_all _ o) rfl rfl rfl rfl rfl

/-- A sweep starts with a word 0 read. -/
theorem within_startSweep {s v : State} (within : WithinPlaces s) (sched : v.sched = s.sched)
    (director : v.director = s.director) (sweeper : v.sweeper = s.startSweep.sweeper) : WithinPlaces v := by
  refine withinPlaces_of within (by rw [sched]) (by rw [sched]) (by rw [director]) (by rw [director]) ?_ fun w c h k => ?_
  · rw [sweeper]
    rfl
  · rw [sweeper] at h
    obtain rfl := Option.some.inj h
    cases k

theorem within_reloadRead {s : State} (within : WithinPlaces s) (bs : List Byte) : WithinPlaces (s.reloadRead bs) := by
  rw [reloadRead_eq]
  split
  · exact withinPlaces_same within rfl rfl rfl rfl
  · have taken : WithinPlaces (settingsTaken s (settings (reloadHeader bs))) := withinPlaces_same within rfl rfl rfl rfl
    have handed := withinPlaces_fits (hands_handSettings s (settings (reloadHeader bs))).fits taken
    have finished : WithinPlaces ((s.handSettings (settings (reloadHeader bs))).finishCommand .reload) :=
      withinPlaces_same handed rfl rfl rfl rfl
    exact withinPlaces_fits (hands_offsAtOnce _).fits finished

theorem within_finishStop {s : State} (within : WithinPlaces s) : WithinPlaces s.finishStop := by
  have checked := within_completeCheck within
  unfold State.finishStop
  generalize s.completeCheck = c at checked
  exact withinPlaces_same checked rfl rfl rfl rfl

theorem within_afterAccess {s : State} (within : WithinPlaces s) (k : UnitKind) (r : Role) (bs : List Byte) :
    WithinPlaces (s.afterAccess k r bs) := by
  have done : WithinPlaces s.headerDone := withinPlaces_same within rfl rfl rfl rfl
  cases r with
  | part => exact within
  | word0 => exact within_word0Read within bs
  | envelope => exact within_envelopeRead within bs
  | word1 => exact within_word1Read within bs
  | claim => exact within_claimWritten within
  | stateWrite => exact within_stateWritten within k
  | countWrite => exact within_countUnitDone within k
  | roundResult => exact withinPlaces_same within rfl rfl rfl rfl
  | giveBack => exact within_givenBack within k
  | startReads => exact within_startRead done bs
  | startUnit => exact within_startSweep (s := s.headerDone) done rfl rfl rfl
  | reloadReads => exact within_reloadRead done bs
  | sweepEnd => exact within_completeCheck done
  | finalUnit => exact within_finishStop done

theorem within_completeAccess {s : State} (within : WithinPlaces s) (u : PortUnit) : WithinPlaces (s.completeAccess u) := by
  rw [completeAccess_eq]
  refine within_afterAccess ?_ _ _ _
  rw [accessLanded_eq]
  exact withinPlaces_same within rfl rfl rfl rfl

/-! ### Commands -/

/-- A sweep that is cut keeps its stage (R79). -/
theorem within_cut {s v : State} (within : WithinPlaces s) (lists : v.sched.lists = s.sched.lists)
    (repeats : v.sched.repeats = s.sched.repeats) (director : v.director = s.director)
    (sweeper : v.sweeper = s.cutSweep.sweeper) : WithinPlaces v := by
  refine withinPlaces_of within lists repeats (by rw [director]) (by rw [director]) ?_ fun w c h k => ?_
  · rw [sweeper]
    rfl
  · have cut : s.sweeper.sweep.map (fun w => { w with cut := true }) = some w := by
      rw [sweeper] at h
      exact h
    obtain ⟨u, sweep, rfl⟩ := Option.map_eq_some_iff.1 cut
    exact ⟨u, sweep, rfl⟩

theorem within_acceptStop {s : State} (within : WithinPlaces s) : WithinPlaces s.acceptStop := by
  have begun : WithinPlaces (stopBegun s) := within_cut within rfl rfl rfl rfl
  have closed := withinPlaces_fits (hands_closeQueue (stopBegun s)).fits begun
  rw [acceptStop_eq]
  refine withinPlaces_fits (hands_stopClearTrunks _).fits ?_
  split
  · exact withinPlaces_fits (fits_finishAtStop _ _) closed
  · exact closed

theorem within_resumeFromStandby {s : State} (within : WithinPlaces s) : WithinPlaces s.resumeFromStandby := by
  have begun : WithinPlaces (resumeBegun s) := withinPlaces_same within rfl rfl rfl rfl
  have marked := withinPlaces_fits (fits_finishMarked s.marked _) begun
  have owed : ∀ u, WithinPlaces u → WithinPlaces u.oweResults := fun u h => withinPlaces_same h rfl rfl rfl rfl
  rw [resumeFromStandby_eq]
  exact owed _ (withinPlaces_fits (hands_owedTrunksOff _).fits marked)

theorem pendingEntry_mem {s : State} {i : Nat} {t : Trunk} {x : Entry} (found : s.pendingEntry i = some (t, x)) :
    x ∈ s.list t := by
  unfold State.pendingEntry at found
  cases trunk : s.trunkOf i with
  | none =>
    rw [trunk] at found
    cases found
  | some u =>
    rw [trunk] at found
    obtain ⟨e, he, same⟩ := Option.map_eq_some_iff.1 found
    obtain ⟨rfl, rfl⟩ := Prod.mk.inj same
    exact findEntry_mem he

/-- Every move keeps the collections within their places. -/
theorem move_keepsPlaces {s v : State} (within : WithinPlaces s) (m : Move s v) : WithinPlaces v := by
  have same : ∀ {v : State}, v.sched = s.sched → v.director = s.director → v.sweeper = s.sweeper → WithinPlaces v :=
    fun sched director sweeper => withinPlaces_same within sched director (by rw [sweeper]) (by rw [sweeper])
  have event : ∀ {v : State}, Hands s v → WithinPlaces v := fun h => withinPlaces_fits h.fits within
  have empty : ∀ {v : State}, v.sched = Scheduler.reset → v.director = Director.reset → v.sweeper = Sweeper.reset →
      WithinPlaces v := fun sched director sweeper =>
    withinPlaces_empty (fun o => by rw [State.list, sched]; exact get_all _ o) (by rw [sched]; rfl) (by rw [director]; rfl)
      (by rw [director]; rfl) (by rw [sweeper]; rfl) (by rw [sweeper]; rfl)
  cases m with
  | stay => exact within
  | refused => exact same rfl rfl rfl
  | startAccepted => exact same rfl rfl rfl
  | pauseAccepted => exact same rfl rfl rfl
  | resumedFromPaused => exact same rfl rfl rfl
  | resumedFromStandby => exact within_resumeFromStandby within
  | standbyAccepted => exact within_cut within rfl rfl rfl rfl
  | stopAccepted => exact within_acceptStop within
  | reloadAccepted => exact same rfl rfl rfl
  | reset => exact empty rfl rfl rfl
  | poweredOn => exact empty rfl rfl rfl
  | sweepAsked =>
    unfold State.askSweep
    split
    · exact withinPlaces_same within rfl rfl rfl rfl
    · exact within_startSweep within rfl rfl rfl
  | registersWritten => exact same rfl rfl rfl
  | synced =>
    have opened : WithinPlaces s.openSyncWindow := same rfl rfl rfl
    exact withinPlaces_fits (hands_trans (hands_trans (hands_trans (hands_selectInWindow _ 0) (hands_selectInWindow _ 1))
      (hands_selectInWindow _ 2)) (hands_selectInWindow _ 3)).fits opened
  | windowClosed => exact same rfl rfl rfl
  | granted r =>
    obtain ⟨c, w, h⟩ := grant_eq s r
    rw [h]
    exact same rfl rfl rfl
  | completed u => exact within_completeAccess within u
  | abandonedEnded =>
    obtain ⟨n, k, p, h⟩ := endAbandoned_eq s
    rw [h]
    exact same rfl rfl rfl
  | faulted u k =>
    rw [enterFaulted_eq]
    exact withinPlaces_same within rfl rfl rfl rfl
  | settlingEnded => exact withinPlaces_same (within_completeCheck within) rfl rfl rfl rfl
  | resumeEnded guard =>
    have running : s.session.state = .running := by
      obtain ⟨st, _⟩ := Bool.and_eq_true_iff.1 guard
      exact beq_iff_eq.1 st
    have owed : WithinPlaces (s.setSession { s.session with resumeOwed := none }) := same rfl rfl rfl
    have assigned := withinPlaces_fits (fits_assignSlots (s := s.setSession { s.session with resumeOwed := none })
      (by rw [setSession_session, running]; exact nofun)) owed
    exact within_startSweep assigned rfl rfl rfl
  | stoppingEnded => exact same rfl rfl rfl
  | holdExpired t => exact event (hands_holdExpires s t)
  | edgeTaken t l => exact event (hands_takeEdge s t l)
  | replySettled t o => exact event (hands_settleReply s t o)
  | replyClosed t => exact event (hands_updateEngine s t _)
  | shapeTimed t => exact event (hands_shapeInSending s t)
  | elementEnded t => exact event (hands_updateEngine s t _)
  | leadMarked t => exact event (hands_updateEngine s t _)
  | malformedTimed t => exact event (hands_abandonFrame s t)
  | answerBegun t => exact event (hands_updateEngine s t _)
  | answerEnded t => exact event (hands_updateEngine s t _)
  | foreignEnded t => exact event (hands_foreignFrameEnds s t)
  | stuck t => exact event (hands_stuckEvent s t)
  | recovered t => exact event (hands_recoverTrunk s t)
  | timingTaken t => exact event (hands_updateEngine s t _)
  | trunkOff t => exact event (hands_trunkGoesOff s t)
  | restEnded i t => exact event (hands_endRest s t i)
  | expired i t x found => exact event (hands_expireEntry (pendingEntry_mem found))
  | dueTime i r found => exact event (hands_dueTimeOf (List.mem_of_find?_eq_some found))
  | roundJoined t => exact event (hands_joinRound s t)

end Sys2Proof.Proofs

/-! SUPPORT. The held map, where no unit completes: commands, events of the trunks, the passing of time (O57, second part;
R77, R82, R109, R168, R172, R176). -/

namespace Sys2Proof.Proofs

open Sys2Proof.Machine Sys2Proof.Laws Sys2Proof.Safety

/-! ### The unit in hand -/

/-- What of a unit the held map's invariant looks at. -/
def unitKey (u : PortUnit) : UnitKind × List Role := (u.kind, rolesLeft u)

/-- What a unit of a kind, with these roles left, belongs to. -/
def KindInPlace (s : State) (k : UnitKind) (roles : List Role) : Prop :=
  match k with
  | .completion i _ => roles <:+ rolesOf k ∧ ∃ w ∈ s.results.queue.head?, completes i w = true
  | .filled i _ =>
    roles <:+ rolesOf k ∧ (roles.contains .stateWrite = true → ∃ q ∈ s.director.queue, q.slot = some i)
  | .roundResult _ => roles <:+ rolesOf k ∧ ∃ w ∈ s.results.queue.head?, ∀ i, completes i w = false
  | .giveBack i => roles <:+ rolesOf k ∧ s.session.state = .stopping ∧ ∃ o ∈ s.director.receiveList, o.index = i
  | .header _ => roles <:+ rolesOf k ∧ s.header ≠ []
  | .sweeper => ∃ w, s.sweeper.sweep = some w ∧ roles = [stageRole w.stage]

theorem unitInPlace_iff (s : State) : UnitInPlace s ↔ ∀ u, s.port.unit = some u →
    s.session.state ≠ .faulted ∧ s.session.state ≠ .standby ∧ KindInPlace s u.kind (rolesLeft u) := by
  unfold UnitInPlace
  cases unit : s.port.unit with
  | none => exact ⟨fun _ u h => (nomatch h), fun _ => trivial⟩
  | some u =>
    have here : ∀ p : PortUnit → Prop, (∀ v, some u = some v → p v) ↔ p u :=
      fun p => ⟨fun h => h u rfl, fun h v e => Option.some.inj e ▸ h⟩
    rw [here]
    refine and_congr_right fun _ => and_congr_right fun _ => ?_
    unfold KindInPlace
    cases u.kind with
    | completion i c => exact Iff.rfl
    | filled i c => exact Iff.rfl
    | roundResult i => exact Iff.rfl
    | giveBack i => exact Iff.rfl
    | header h => exact Iff.rfl
    | sweeper => exact Iff.rfl

theorem stateStands_none {s : State} (unit : s.port.unit = none) : stateStands s = false := by
  unfold stateStands
  rw [unit]

/-- Only a completion can have had its state write while its entry stands in the queue. -/
theorem stateStands_some {s : State} {u : PortUnit} (unit : s.port.unit = some u) :
    (∀ i c, u.kind = .completion i c → stateStands s = !(rolesLeft u).contains .stateWrite)
      ∧ ((∀ i c, u.kind ≠ .completion i c) → stateStands s = false) := by
  unfold stateStands
  rw [unit]
  dsimp only
  cases u.kind with
  | completion i c => exact ⟨fun _ _ _ => rfl, fun h => absurd rfl (h i c)⟩
  | filled i c => exact ⟨nofun, fun _ => rfl⟩
  | roundResult i => exact ⟨nofun, fun _ => rfl⟩
  | giveBack i => exact ⟨nofun, fun _ => rfl⟩
  | header h => exact ⟨nofun, fun _ => rfl⟩
  | sweeper => exact ⟨nofun, fun _ => rfl⟩

theorem unit_of_key {s v : State} (unit : v.port.unit.map unitKey = s.port.unit.map unitKey) {u : PortUnit}
    (hv : v.port.unit = some u) : ∃ w, s.port.unit = some w ∧ w.kind = u.kind ∧ rolesLeft w = rolesLeft u := by
  rw [hv, Option.map_some] at unit
  obtain ⟨w, hw, same⟩ := Option.map_eq_some_iff.1 unit.symm
  obtain ⟨kind, roles⟩ := Prod.mk.inj same
  exact ⟨w, hw, kind, roles⟩

theorem stateStands_key {s v : State} (unit : v.port.unit.map unitKey = s.port.unit.map unitKey) :
    stateStands v = stateStands s := by
  cases hv : v.port.unit with
  | none =>
    rw [hv, Option.map_none] at unit
    rw [stateStands_none hv, stateStands_none (Option.map_eq_none_iff.1 unit.symm)]
  | some u =>
    obtain ⟨w, hw, kind, roles⟩ := unit_of_key unit hv
    obtain ⟨completionV, otherV⟩ := stateStands_some hv
    obtain ⟨completionS, otherS⟩ := stateStands_some hw
    by_cases h : ∃ i c, u.kind = .completion i c
    · obtain ⟨i, c, k⟩ := h
      rw [completionV i c k, completionS i c (kind.trans k), roles]
    · rw [otherV fun i c k => h ⟨i, c, k⟩, otherS fun i c k => h ⟨i, c, kind.symm.trans k⟩]

/-! ### The parts of the invariant -/

/-- The held map's bits are what the places hold; with `front` the entry at the front of the queue has had its state
write. -/
structure Held (front : Bool) (s : State) : Prop where
  rounds : RoundsInTable s
  ahead : front = true → s.results.queue ≠ []
  exact : ∀ i, holders s front i = (s.sweeper.held.getLsbD i).toNat

theorem Held.sound {front : Bool} {s : State} (h : Held front s) : Sound front s :=
  ⟨h.rounds, h.ahead, fun i => h.exact i ▸ Bool.toNat_le _⟩

theorem heldMapKept_iff (s : State) : HeldMapKept s ↔
    (∃ front, (s.session.state ≠ .faulted → front = stateStands s) ∧ Held front s)
      ∧ SweepInTable s ∧ UnitInPlace s ∧ ResumeInOrder s := by
  constructor
  · rintro ⟨⟨front, agrees, ahead, exact⟩, rounds, swept, inPlace, resume⟩
    exact ⟨⟨front, agrees, rounds, ahead, exact⟩, swept, inPlace, resume⟩
  · rintro ⟨⟨front, agrees, rounds, ahead, exact⟩, swept, inPlace, resume⟩
    exact ⟨⟨front, agrees, ahead, exact⟩, rounds, swept, inPlace, resume⟩

theorem held_same {front : Bool} {s v : State} (h : Held front s) (sched : v.sched = s.sched)
    (director : v.director = s.director) (queue : v.results.queue = s.results.queue)
    (held : v.sweeper.held = s.sweeper.held) : Held front v := by
  have lists : ∀ o, v.list o = s.list o := fun o => congrArg (fun q : Scheduler => q.lists.get o) sched
  refine ⟨?_, fun k => queue ▸ h.ahead k, fun i => ?_⟩
  · refine roundsInTable_keys h.rounds (fun o => by rw [lists]) fun r hr inRound => ⟨r, ?_, rfl, rfl, inRound⟩
    rw [sched]
    exact hr
  · rw [held, ← h.exact i, holders_eq, holders_eq, director, queue, sched,
      inLists_of_ordinaries (s := s) (v := v) fun o => by rw [lists]]

/-- What the unit in hand belongs to stays where it is. -/
theorem kindInPlace_of {s v : State} {k : UnitKind} {roles : List Role} (h : KindInPlace s k roles)
    (front : (∃ i c, k = .completion i c) ∨ (∃ i, k = .roundResult i) →
      ∀ w ∈ s.results.queue.head?, w ∈ v.results.queue.head?)
    (slots : ∀ i, (∃ q ∈ s.director.queue, q.slot = some i) → ∃ q ∈ v.director.queue, q.slot = some i)
    (offers : s.session.state = .stopping →
      v.session.state = .stopping ∧ v.director.receiveList = s.director.receiveList)
    (header : s.header ≠ [] → v.header ≠ [])
    (sweep : ∀ w, s.sweeper.sweep = some w → ∃ x, v.sweeper.sweep = some x ∧ x.stage = w.stage) :
    KindInPlace v k roles := by
  unfold KindInPlace at h ⊢
  cases k with
  | completion i c =>
    obtain ⟨left, w, hw, own⟩ := h
    exact ⟨left, w, front (.inl ⟨i, c, rfl⟩) w hw, own⟩
  | filled i c =>
    obtain ⟨left, slot⟩ := h
    exact ⟨left, fun k => slots i (slot k)⟩
  | roundResult i =>
    obtain ⟨left, w, hw, own⟩ := h
    exact ⟨left, w, front (.inr ⟨i, rfl⟩) w hw, own⟩
  | giveBack i =>
    obtain ⟨left, st, o, ho, own⟩ := h
    obtain ⟨stopping, same⟩ := offers st
    exact ⟨left, stopping, o, same ▸ ho, own⟩
  | header u =>
    obtain ⟨left, some⟩ := h
    exact ⟨left, header some⟩
  | sweeper =>
    obtain ⟨w, hw, left⟩ := h
    obtain ⟨x, hx, stage⟩ := sweep w hw
    exact ⟨x, hx, by rw [stage]; exact left⟩

/-! ### Events of the trunks -/

theorem held_hands {front : Bool} {s v : State} (h : Held front s) (hands : Hands s v) : Held front v := by
  obtain ⟨sound, same⟩ := hands.conserves front h.sound
  refine ⟨sound.rounds, sound.ahead, fun i => ?_⟩
  rw [same, h.exact, same_sweeper hands.fits.elsewhere]

theorem heldMapKept_hands {s v : State} (hands : Hands s v) (kept : HeldMapKept s) : HeldMapKept v := by
  obtain ⟨⟨front, agrees, held⟩, swept, inPlace, resume⟩ := (heldMapKept_iff s).1 kept
  have fits := hands.fits
  have session := same_session fits.elsewhere
  have port := same_port fits.elsewhere
  have sweeper := same_sweeper fits.elsewhere
  have header := same_header fits.elsewhere
  refine (heldMapKept_iff v).2 ⟨⟨front, fun st => ?_, held_hands held hands⟩, ?_, ?_, ?_⟩
  · rw [agrees (session ▸ st)]
    exact (stateStands_key (by rw [port])).symm
  · unfold SweepInTable at swept ⊢
    rw [session, sweeper]
    exact swept
  · rw [unitInPlace_iff] at inPlace ⊢
    intro u hu
    rw [port] at hu
    obtain ⟨live, awake, place⟩ := inPlace u hu
    refine ⟨session ▸ live, session ▸ awake, kindInPlace_of place (fun kind => fits.front ?_) fits.slots
      (fun st => ⟨session ▸ st, fits.stopping st⟩) (fun some => header ▸ some)
      fun w hw => ⟨w, sweeper ▸ hw, rfl⟩⟩
    unfold State.frontGranted
    rw [hu]
    dsimp only
    rcases kind with ⟨i, c, k⟩ | ⟨i, k⟩
    · rw [k]
    · rw [k]
  · unfold ResumeInOrder at resume ⊢
    rw [session, sweeper, header]
    exact resume

/-! ### Moves that leave the collections -/

/-- The collections, the held map and the unit in hand stay; what else the invariant says is said of the new state. -/
theorem heldMapKept_of {s v : State} (kept : HeldMapKept s) (sched : v.sched = s.sched)
    (director : v.director = s.director) (queue : v.results.queue = s.results.queue)
    (held : v.sweeper.held = s.sweeper.held) (unit : v.port.unit.map unitKey = s.port.unit.map unitKey)
    (live : v.session.state ≠ .faulted → s.session.state ≠ .faulted)
    (states : s.port.unit ≠ none → v.session.state ≠ .faulted ∧ v.session.state ≠ .standby
      ∧ (s.session.state = .stopping → v.session.state = .stopping))
    (header : s.port.unit ≠ none → s.header ≠ [] → v.header ≠ [])
    (sweep : s.port.unit ≠ none → ∀ w, s.sweeper.sweep = some w → ∃ x, v.sweeper.sweep = some x ∧ x.stage = w.stage)
    (swept : SweepInTable v) (resume : ResumeInOrder v) : HeldMapKept v := by
  obtain ⟨⟨front, agrees, exact⟩, _, inPlace, _⟩ := (heldMapKept_iff s).1 kept
  refine (heldMapKept_iff v).2 ⟨⟨front, fun st => ?_, held_same exact sched director queue held⟩, swept, ?_, resume⟩
  · rw [agrees (live st), stateStands_key unit]
  · rw [unitInPlace_iff] at inPlace ⊢
    intro u hu
    obtain ⟨w, hw, kind, roles⟩ := unit_of_key unit hu
    obtain ⟨_, _, place⟩ := inPlace w hw
    rw [kind, roles] at place
    have some : s.port.unit ≠ none := by
      rw [hw]
      exact nofun
    obtain ⟨notFaulted, awake, stopping⟩ := states some
    exact ⟨notFaulted, awake, kindInPlace_of place (fun _ _ h => queue ▸ h) (by rw [director]; exact fun _ => id)
      (fun st => ⟨stopping st, by rw [director]⟩) (header some) (sweep some)⟩

/-- The same where the port is free. -/
theorem heldMapKept_free {s v : State} (kept : HeldMapKept s) (free : s.port.unit = none) (sched : v.sched = s.sched)
    (director : v.director = s.director) (queue : v.results.queue = s.results.queue)
    (held : v.sweeper.held = s.sweeper.held) (port : v.port.unit = s.port.unit)
    (live : v.session.state ≠ .faulted → s.session.state ≠ .faulted) (swept : SweepInTable v) (resume : ResumeInOrder v) :
    HeldMapKept v :=
  heldMapKept_of kept sched director queue held (by rw [port]) live (fun some => absurd free some)
    (fun some => absurd free some) (fun some => absurd free some) swept resume

/-- Nothing that the invariant looks at changes. -/
theorem heldMapKept_same {s v : State} (kept : HeldMapKept s) (sched : v.sched = s.sched)
    (director : v.director = s.director) (queue : v.results.queue = s.results.queue)
    (sweeper : v.sweeper = s.sweeper) (port : v.port.unit = s.port.unit) (session : v.session = s.session)
    (header : v.header = s.header) : HeldMapKept v := by
  obtain ⟨_, swept, inPlace, resume⟩ := (heldMapKept_iff s).1 kept
  refine heldMapKept_of kept sched director queue (by rw [sweeper]) (by rw [port]) (by rw [session]; exact id)
    (fun some => ?_) (fun _ => by rw [header]; exact id)
    (fun _ w hw => ⟨w, sweeper ▸ hw, rfl⟩) ?_ ?_
  · obtain ⟨u, hu⟩ := Option.ne_none_iff_exists'.1 some
    obtain ⟨live, awake, _⟩ := (unitInPlace_iff s).1 inPlace u hu
    rw [session]
    exact ⟨live, awake, id⟩
  · unfold SweepInTable at swept ⊢
    rw [session, sweeper]
    exact swept
  · unfold ResumeInOrder at resume ⊢
    rw [session, sweeper, header]
    exact resume

/-- The sweeper's table bounds, the claim cursor and the sweep in progress, but for its cut. -/
theorem sweepInTable_of {s v : State} (swept : SweepInTable s) (n : v.session.n = s.session.n)
    (f : v.session.f = s.session.f) (cursor : v.sweeper.cursor = s.sweeper.cursor)
    (held : ∀ i, s.sweeper.held.getLsbD i = false → v.sweeper.held.getLsbD i = false)
    (sweep : ∀ x, v.sweeper.sweep = some x → ∃ w, s.sweeper.sweep = some w ∧ w.index = x.index ∧ w.stage = x.stage) :
    SweepInTable v := by
  obtain ⟨hn, hf, hc, each⟩ := swept
  refine ⟨by rw [n]; exact hn, by rw [f]; exact hf, by rw [cursor]; exact hc, fun x hx => ?_⟩
  obtain ⟨w, hw, index, stage⟩ := sweep x hx
  have parts := each w hw
  rw [index, stage] at parts
  obtain ⟨bound, free, sendSide⟩ := parts
  rw [f]
  exact ⟨bound, fun k => held _ (free k), sendSide⟩

/-- The resume processing owes nothing in these states. -/
theorem resumeOwed_none {s : State} (resume : ResumeInOrder s) (faulted : s.session.state ≠ .faulted)
    (other : s.session.state = .running → s.session.inProgress ≠ some .resume) : s.session.resumeOwed = none := by
  by_contra owed
  rcases resume.2 owed with h | ⟨h, k⟩
  · exact faulted h
  · exact other h k

theorem not_resuming {s : State} (idle : s.commandBusy = false) : s.session.inProgress ≠ some .resume := by
  intro h
  unfold State.commandBusy at idle
  rw [h] at idle
  simp at idle

/-- With no sweep owed to wait for, anything may be in progress. -/
theorem resumeInOrder_of {v : State} (awake : v.session.state ≠ .standby) (owed : v.session.resumeOwed = none) :
    ResumeInOrder v :=
  ⟨fun h => h.elim (fun st => absurd st awake) fun k => absurd owed k, fun k => absurd owed k⟩

/-- A sweep that starts where none is in progress stands at the cursor, which is in the table (R69). -/
theorem sweepInTable_started {s v : State} (swept : SweepInTable s) (session : v.session.n = s.session.n)
    (f : v.session.f = s.session.f) (sweeper : v.sweeper = s.startSweep.sweeper) : SweepInTable v := by
  obtain ⟨hn, hf, hc, _⟩ := swept
  have cursor : v.sweeper.cursor = s.sweeper.cursor := by
    rw [sweeper]
    rfl
  refine ⟨session ▸ hn, f ▸ hf, cursor ▸ hc, fun x hx => ?_⟩
  rw [sweeper] at hx
  have started := Option.some.inj hx
  have index : x.index = s.sweeper.cursor := by rw [← started]
  have stage : x.stage = .word0 := by rw [← started]
  rw [index, stage]
  exact ⟨hc, fun h => absurd rfl h, nofun, nofun, nofun⟩

/-- With nothing held, nothing pending and nothing in progress, the held map is exact. -/
theorem heldMapKept_empty {s : State} (sched : s.sched.lists = Four.all []) (repeats : s.sched.repeats = [])
    (offers : s.director.receiveList = []) (frames : s.director.queue = []) (queue : s.results.queue = [])
    (sweeper : s.sweeper.held = 0#1024) (cursor : s.sweeper.cursor = 0) (sweep : s.sweeper.sweep = none)
    (unit : s.port.unit = none) (n : s.session.n ≤ 1024) (f : s.session.f ≤ 1024)
    (awake : s.session.state ≠ .standby) (owed : s.session.resumeOwed = none) : HeldMapKept s := by
  have lists : ∀ o, s.list o = [] := by
    intro o
    rw [State.list, sched]
    exact get_all _ o
  refine (heldMapKept_iff s).2 ⟨⟨false, fun _ => (stateStands_none unit).symm, ⟨fun o => ?_, nofun, fun i => ?_⟩⟩, ?_, ?_,
    resumeInOrder_of awake owed⟩
  · rw [lists]
    exact ⟨List.nodup_nil, fun e he => absurd he List.not_mem_nil⟩
  · rw [holders_eq, inLists, lists, lists, lists, lists, repeats, atDirector, offers, frames, queue, sweeper]
    simp [ordinaries, inTable, inQueue, unwritten]
  · refine ⟨n, f, by rw [cursor]; decide, fun w hw => ?_⟩
    rw [sweep] at hw
    cases hw
  · refine (unitInPlace_iff s).2 fun u hu => ?_
    rw [unit] at hu
    cases hu

end Sys2Proof.Proofs

/-! SUPPORT. The held map, where an access of a completion, a frame, a round result or a give-back completes (O57, second
part; R77, R132, R136, R141, R142). -/

namespace Sys2Proof.Proofs

open Sys2Proof.Machine Sys2Proof.Laws Sys2Proof.Safety

/-! ### Bits of the held map -/

theorem heldBit_bit (i j : Nat) : (heldBit i).getLsbD j = (decide (j < 1024) && j == i) := by
  unfold heldBit
  rw [BitVec.getLsbD_shiftLeft, BitVec.getLsbD_one]
  by_cases same : j = i
  · subst same
    simp
  · have other : (j == i) = false := beq_eq_false_iff_ne.2 same
    rw [other, Bool.and_false]
    by_cases before : j < i
    · simp [before]
    · have after : j - i ≠ 0 := by omega
      simp [after]

theorem unhold_bit (s : State) (i j : Nat) :
    (s.unhold i).sweeper.held.getLsbD j = (s.sweeper.held.getLsbD j && j != i) := by
  show (s.sweeper.held &&& ~~~(heldBit i)).getLsbD j = _
  rw [BitVec.getLsbD_and, BitVec.getLsbD_not, heldBit_bit]
  by_cases bound : j < 1024
  · rw [decide_eq_true bound, Bool.true_and, Bool.true_and]
    rfl
  · rw [BitVec.getLsbD_of_ge _ _ (Nat.not_lt.1 bound), Bool.false_and, Bool.false_and]

theorem hold_bit (s : State) {i : Nat} (bound : i < 1024) (j : Nat) :
    (s.hold i).sweeper.held.getLsbD j = (s.sweeper.held.getLsbD j || j == i) := by
  show (s.sweeper.held ||| heldBit i).getLsbD j = _
  rw [BitVec.getLsbD_or, heldBit_bit]
  by_cases same : j = i
  · subst same
    rw [decide_eq_true bound, Bool.true_and]
  · rw [beq_eq_false_iff_ne.2 same, Bool.and_false]

/-- An index that leaves its last place is held no longer. -/
theorem exact_unhold {front after : Bool} {s v : State} {i : Nat} (h : Held front s)
    (less : ∀ j, holders v after j + (if j = i then 1 else 0) = holders s front j)
    (held : v.sweeper.held = (s.unhold i).sweeper.held) :
    ∀ j, holders v after j = (v.sweeper.held.getLsbD j).toNat := by
  intro j
  have count := less j
  rw [h.exact j] at count
  rw [held, unhold_bit]
  by_cases same : j = i
  · subst same
    rw [if_pos rfl] at count
    have one := Bool.toNat_le (s.sweeper.held.getLsbD j)
    rw [bne_self_eq_false, Bool.and_false]
    show holders v after j = 0
    omega
  · rw [if_neg same, Nat.add_zero] at count
    rw [bne_iff_ne.2 same, Bool.and_true, count]

/-- An index that takes a place, and no other, is held. -/
theorem exact_hold {front : Bool} {s v : State} {i : Nat} (h : Held front s) (bound : i < 1024)
    (free : s.sweeper.held.getLsbD i = false)
    (more : ∀ j, holders v front j = holders s front j + if j = i then 1 else 0)
    (held : v.sweeper.held = (s.hold i).sweeper.held) : ∀ j, holders v front j = (v.sweeper.held.getLsbD j).toNat := by
  intro j
  rw [held, hold_bit s bound, more, h.exact j]
  by_cases same : j = i
  · subst same
    rw [if_pos rfl, free, beq_self_eq_true]
    rfl
  · rw [if_neg same, beq_eq_false_iff_ne.2 same, Bool.or_false, Nat.add_zero]

theorem countP_remove {α β : Type} [BEq β] [LawfulBEq β] {l : List α} {key : α → β} {k : β}
    (one : l.countP (fun x => key x == k) = 1) (j : β) :
    (l.filter (fun x => key x != k)).countP (fun x => key x == j) + (if (j == k) = true then 1 else 0)
      = l.countP (fun x => key x == j) := by
  rw [List.countP_filter]
  by_cases same : j = k
  · subst same
    rw [if_pos (beq_self_eq_true j), one]
    refine congrArg (· + 1) (List.countP_eq_zero.2 fun x _ h => ?_)
    obtain ⟨own, other⟩ := Bool.and_eq_true_iff.1 h
    exact bne_iff_ne.1 other (beq_iff_eq.1 own)
  · rw [if_neg fun h => same (beq_iff_eq.1 h), Nat.add_zero]
    refine List.countP_congr fun x _ => ?_
    rw [Bool.and_eq_true, beq_iff_eq, bne_iff_ne]
    exact ⟨fun h => h.1, fun h => ⟨h, fun own => same (h.symm.trans own)⟩⟩

/-! ### The unit after an access -/

theorem rolesLeft_eq (u : PortUnit) : rolesLeft u = u.access.role :: u.rest.map Access.role := rfl

theorem next_key (u : PortUnit) (d : List Byte) :
    (u.next d).map unitKey = if u.rest.map Access.role = [] then none else some (u.kind, u.rest.map Access.role) := by
  unfold PortUnit.next
  cases u.rest with
  | nil => rfl
  | cons a rest => rfl

theorem landed_unit (s : State) (u : PortUnit) :
    (accessLanded s u).port.unit.map unitKey =
      if u.rest.map Access.role = [] then none else some (u.kind, u.rest.map Access.role) := by
  rw [accessLanded_eq]
  exact next_key u _

/-- Only the unit in hand changes. -/
theorem heldMapKept_port {s v : State} (kept : HeldMapKept s) (sched : v.sched = s.sched)
    (director : v.director = s.director) (queue : v.results.queue = s.results.queue)
    (sweeper : v.sweeper = s.sweeper) (session : v.session = s.session) (header : v.header = s.header)
    (stands : stateStands v = stateStands s) (inPlace : UnitInPlace v) : HeldMapKept v := by
  obtain ⟨⟨front, agrees, exact⟩, swept, _, resume⟩ := (heldMapKept_iff s).1 kept
  refine (heldMapKept_iff v).2 ⟨⟨front, fun st => ?_, held_same exact sched director queue (by rw [sweeper])⟩, ?_,
    inPlace, ?_⟩
  · rw [stands]
    exact agrees (session ▸ st)
  · unfold SweepInTable at swept ⊢
    rw [session, sweeper]
    exact swept
  · unfold ResumeInOrder at resume ⊢
    rw [session, sweeper, header]
    exact resume

theorem unitInPlace_none {v : State} (unit : v.port.unit = none) : UnitInPlace v :=
  (unitInPlace_iff v).2 fun u hu => by
    rw [unit] at hu
    cases hu

theorem unitInPlace_key {v : State} {k : UnitKind} {roles : List Role} (unit : v.port.unit.map unitKey = some (k, roles))
    (live : v.session.state ≠ .faulted) (awake : v.session.state ≠ .standby) (place : KindInPlace v k roles) :
    UnitInPlace v := by
  refine (unitInPlace_iff v).2 fun u hu => ⟨live, awake, ?_⟩
  rw [hu, Option.map_some, Option.some.injEq] at unit
  obtain ⟨rfl, rfl⟩ := Prod.mk.inj unit
  exact place

theorem stateStands_of_key {v : State} {k : UnitKind} {roles : List Role}
    (unit : v.port.unit.map unitKey = some (k, roles)) :
    (∀ i c, k = .completion i c → stateStands v = !roles.contains .stateWrite)
      ∧ ((∀ i c, k ≠ .completion i c) → stateStands v = false) := by
  obtain ⟨u, hu, same⟩ := Option.map_eq_some_iff.1 unit
  obtain ⟨rfl, rfl⟩ := Prod.mk.inj same
  exact stateStands_some hu

/-- A unit that is no completion is done with its last access. -/
theorem heldMapKept_unitDone {s : State} {u : PortUnit} (kept : HeldMapKept s) (inHand : s.port.unit = some u)
    (last : u.rest.map Access.role = []) (other : ∀ i c, u.kind ≠ .completion i c) :
    HeldMapKept (accessLanded s u) ∧ (accessLanded s u).port.unit = none := by
  have unit := landed_unit s u
  rw [if_pos last, Option.map_eq_none_iff] at unit
  refine ⟨?_, unit⟩
  have stands : stateStands (accessLanded s u) = stateStands s := by
    rw [stateStands_none unit, (stateStands_some inHand).2 other]
  have inPlace := unitInPlace_none unit
  rw [accessLanded_eq] at stands inPlace ⊢
  exact heldMapKept_port kept rfl rfl rfl rfl rfl rfl stands inPlace

/-- A unit goes on to its next access, with nothing but the access behind it. -/
theorem heldMapKept_part {s : State} {u : PortUnit} (kept : HeldMapKept s) (inHand : s.port.unit = some u)
    (part : u.access.role = .part) (more : u.rest.map Access.role ≠ []) : HeldMapKept (accessLanded s u) := by
  obtain ⟨_, _, inPlace, _⟩ := (heldMapKept_iff s).1 kept
  obtain ⟨live, awake, place⟩ := (unitInPlace_iff s).1 inPlace u inHand
  have unit := landed_unit s u
  rw [if_neg more] at unit
  have contains : (rolesLeft u).contains .stateWrite = (u.rest.map Access.role).contains .stateWrite := by
    rw [rolesLeft_eq, part]
    rfl
  have stands : stateStands (accessLanded s u) = stateStands s := by
    obtain ⟨completion, other⟩ := stateStands_of_key unit
    obtain ⟨completionS, otherS⟩ := stateStands_some inHand
    by_cases h : ∃ i c, u.kind = .completion i c
    · obtain ⟨i, c, k⟩ := h
      rw [completion i c k, completionS i c k, contains]
    · rw [other fun i c k => h ⟨i, c, k⟩, otherS fun i c k => h ⟨i, c, k⟩]
  have tail : u.rest.map Access.role <:+ rolesLeft u := List.suffix_cons _ _
  have left : KindInPlace s u.kind (u.rest.map Access.role) := by
    unfold KindInPlace at place ⊢
    cases kind : u.kind with
    | completion i c =>
      rw [kind] at place
      exact ⟨tail.trans place.1, place.2⟩
    | filled i c =>
      rw [kind] at place
      exact ⟨tail.trans place.1, fun h => place.2 (contains.trans h)⟩
    | roundResult i =>
      rw [kind] at place
      exact ⟨tail.trans place.1, place.2⟩
    | giveBack i =>
      rw [kind] at place
      exact ⟨tail.trans place.1, place.2⟩
    | header h =>
      rw [kind] at place
      exact ⟨tail.trans place.1, place.2⟩
    | sweeper =>
      rw [kind] at place
      obtain ⟨w, _, roles⟩ := place
      rw [rolesLeft_eq, List.cons.injEq] at roles
      exact absurd roles.2 more
  rw [accessLanded_eq] at unit stands ⊢
  exact heldMapKept_port kept rfl rfl rfl rfl rfl rfl stands (unitInPlace_key unit live awake
    (kindInPlace_of left (fun _ _ h => h) (fun _ => id) (fun st => ⟨st, rfl⟩) id fun w hw => ⟨w, hw, rfl⟩))

/-! ### Completions (R141) -/

theorem completes_eq {i : Nat} {w : Work} (own : completes i w = true) (j : Nat) : completes j w = (i == j) := by
  cases w with
  | done k g =>
    obtain rfl := beq_iff_eq.1 own
    rfl
  | rejected k c =>
    obtain rfl := beq_iff_eq.1 own
    rfl
  | round k g => cases own

/-- The state write of a completion: its index has left the queue, though its entry stands there still (R77). -/
theorem heldMapKept_completionState {s v : State} {u : PortUnit} {i : Nat} {c : Half} (kept : HeldMapKept s)
    (inHand : s.port.unit = some u) (kind : u.kind = .completion i c)
    (roles : rolesLeft u = [.stateWrite, .part, .countWrite]) (sched : v.sched = s.sched)
    (director : v.director = s.director) (queue : v.results.queue = s.results.queue)
    (sweep : v.sweeper = (s.unhold i).sweeper) (session : v.session = s.session) (header : v.header = s.header)
    (unit : v.port.unit.map unitKey = some (u.kind, [.part, .countWrite])) : HeldMapKept v := by
  obtain ⟨⟨front, agrees, exact⟩, swept, inPlace, resume⟩ := (heldMapKept_iff s).1 kept
  obtain ⟨live, awake, place⟩ := (unitInPlace_iff s).1 inPlace u inHand
  rw [kind] at unit place
  obtain ⟨_, w, hw, own⟩ := place
  have before : front = false := by
    rw [agrees live, (stateStands_some inHand).1 i c kind, roles]
    rfl
  subst before
  obtain ⟨ws, hq⟩ : ∃ ws, s.results.queue = w :: ws := by
    cases q : s.results.queue with
    | nil =>
      rw [q] at hw
      cases hw
    | cons x xs =>
      rw [q] at hw
      exact ⟨xs, by rw [Option.some.inj hw]⟩
  have lists : ∀ o, v.list o = s.list o := fun o => congrArg (fun q : Scheduler => q.lists.get o) sched
  have less : ∀ j, holders v true j + (if j = i then 1 else 0) = holders s false j := by
    intro j
    have front : inQueue false (w :: ws) j = inQueue true (w :: ws) j + if completes j w = true then 1 else 0 :=
      List.countP_cons
    rw [completes_eq own j] at front
    simp only [beq_iff_eq, eq_comm (a := i)] at front
    rw [holders_eq, holders_eq, sched, director, queue, hq, front, inLists_of_ordinaries (s := s) fun o => by rw [lists]]
    omega
  refine (heldMapKept_iff v).2 ⟨⟨true, fun _ => ?_, ⟨?_, fun _ => ?_, exact_unhold exact less (by rw [sweep])⟩⟩,
    ?_, ?_, ?_⟩
  · rw [(stateStands_of_key unit).1 i c rfl]
    rfl
  · refine roundsInTable_keys exact.rounds (fun o => by rw [lists]) fun r hr inRound => ⟨r, ?_, rfl, rfl, inRound⟩
    rw [sched]
    exact hr
  · rw [queue, hq]
    exact List.cons_ne_nil _ _
  · refine sweepInTable_of swept (by rw [session]) (by rw [session]) (by rw [sweep]; rfl) (fun j free => ?_)
      fun x hx => ⟨x, by rw [sweep] at hx; exact hx, rfl, rfl⟩
    rw [sweep, unhold_bit, free, Bool.false_and]
  · refine unitInPlace_key unit (by rw [session]; exact live) (by rw [session]; exact awake)
      ⟨⟨[.part, .stateWrite], rfl⟩, w, ?_, own⟩
    rw [queue]
    exact hw
  · unfold ResumeInOrder at resume ⊢
    rw [session, header, sweep]
    exact resume

/-- The front of the queue goes, and the port is free: what the front completed it completes no longer. -/
theorem heldMapKept_dequeued {s v : State} (kept : HeldMapKept s) (live : s.session.state ≠ .faulted)
    (written : ∀ j, inQueue (stateStands s) s.results.queue j = s.results.queue.tail.countP (completes j))
    (sched : v.sched = s.sched) (director : v.director = s.director) (queue : v.results.queue = s.results.queue.tail)
    (sweeper : v.sweeper = s.sweeper) (state : v.session.state = s.session.state) (n : v.session.n = s.session.n)
    (f : v.session.f = s.session.f) (inProgress : v.session.inProgress = s.session.inProgress)
    (owed : v.session.resumeOwed ≠ none → s.session.resumeOwed ≠ none) (header : v.header = s.header)
    (unit : v.port.unit = none) : HeldMapKept v := by
  obtain ⟨⟨front, agrees, exact⟩, swept, _, resume⟩ := (heldMapKept_iff s).1 kept
  obtain rfl := agrees live
  have lists : ∀ o, v.list o = s.list o := fun o => congrArg (fun q : Scheduler => q.lists.get o) sched
  refine (heldMapKept_iff v).2 ⟨⟨false, fun _ => (stateStands_none unit).symm, ⟨?_, nofun, fun j => ?_⟩⟩, ?_,
    unitInPlace_none unit, ?_⟩
  · refine roundsInTable_keys exact.rounds (fun o => by rw [lists]) fun r hr inRound => ⟨r, ?_, rfl, rfl, inRound⟩
    rw [sched]
    exact hr
  · have count := exact.exact j
    rw [holders_eq, written] at count
    rw [sweeper, ← count, holders_eq, sched, director, queue, inLists_of_ordinaries (s := s) (v := v) fun o => by rw [lists]]
    rfl
  · exact sweepInTable_of swept n f (by rw [sweeper]) (fun j free => by rw [sweeper]; exact free)
      fun x hx => ⟨x, sweeper ▸ hx, rfl, rfl⟩
  · obtain ⟨waits, resuming⟩ := resume
    refine ⟨fun h => ?_, fun k => ?_⟩
    · rw [sweeper, header]
      exact waits (h.imp (fun st => state ▸ st) owed)
    · rw [state, inProgress]
      exact resuming (owed k)

theorem countWritten_eqs (s : State) (c : Half) :
    (s.countWritten c).results.queue = s.results.queue ∧ (s.countWritten c).port = s.port
      ∧ (s.countWritten c).session = s.session ∧ (s.countWritten c).header = s.header := by
  unfold State.countWritten
  dsimp only
  split
  · exact ⟨rfl, rfl, rfl, rfl⟩
  · exact ⟨rfl, rfl, rfl, rfl⟩

theorem heldMapKept_countWritten {s : State} (kept : HeldMapKept s) (c : Half) : HeldMapKept (s.countWritten c) := by
  obtain ⟨sched, director, sweeper⟩ := countWritten_same s c
  obtain ⟨queue, port, session, header⟩ := countWritten_eqs s c
  exact heldMapKept_same kept sched director queue sweeper (by rw [port]) session header

theorem dequeue_owed (s : State) : s.dequeue.session.resumeOwed ≠ none → s.session.resumeOwed ≠ none := by
  intro h none
  refine h ?_
  show s.session.resumeOwed.map (fun k => k - 1) = Option.none
  rw [none]
  rfl

/-- The accesses of a completion (R141). -/
theorem heldMapKept_completion {s : State} {u : PortUnit} {i : Nat} {c : Half} (kept : HeldMapKept s)
    (inHand : s.port.unit = some u) (kind : u.kind = .completion i c) (d : List Byte) :
    HeldMapKept ((accessLanded s u).afterAccess u.kind u.access.role d) := by
  obtain ⟨_, _, inPlace, _⟩ := (heldMapKept_iff s).1 kept
  obtain ⟨live, _, place⟩ := (unitInPlace_iff s).1 inPlace u inHand
  have stands := (stateStands_some inHand).1 i c kind
  have unit := landed_unit s u
  rw [kind] at place
  obtain ⟨left, _⟩ := place
  have parts : ∀ role roles, rolesLeft u = role :: roles → u.access.role = role ∧ u.rest.map Access.role = roles := by
    intro role roles h
    rw [rolesLeft_eq, List.cons.injEq] at h
    exact h
  unfold rolesOf at left
  rw [List.suffix_cons_iff, List.suffix_cons_iff, List.suffix_cons_iff, List.suffix_cons_iff, List.suffix_nil] at left
  rcases left with h | h | h | h | h
  · obtain ⟨role, rest⟩ := parts _ _ h
    rw [role]
    exact heldMapKept_part kept inHand role (by rw [rest]; exact List.cons_ne_nil _ _)
  · obtain ⟨role, rest⟩ := parts _ _ h
    rw [rest, if_neg (List.cons_ne_nil _ _)] at unit
    rw [role, kind]
    rw [accessLanded_eq] at unit ⊢
    exact heldMapKept_completionState kept inHand kind h rfl rfl rfl rfl rfl rfl unit
  · obtain ⟨role, rest⟩ := parts _ _ h
    rw [role]
    exact heldMapKept_part kept inHand role (by rw [rest]; exact List.cons_ne_nil _ _)
  · obtain ⟨role, rest⟩ := parts _ _ h
    rw [rest, if_pos rfl, Option.map_eq_none_iff] at unit
    rw [h] at stands
    have written : ∀ j, inQueue (stateStands s) s.results.queue j = s.results.queue.tail.countP (completes j) := by
      intro j
      rw [stands]
      rfl
    rw [role, kind]
    rw [accessLanded_eq] at unit ⊢
    refine heldMapKept_countWritten (s := State.dequeue _) ?_ c
    exact heldMapKept_dequeued kept live written rfl rfl rfl rfl rfl rfl rfl rfl (dequeue_owed s) rfl unit
  · cases h

/-- The access of a round result (R140). -/
theorem heldMapKept_roundResult {s : State} {u : PortUnit} {i : Nat} (kept : HeldMapKept s)
    (inHand : s.port.unit = some u) (kind : u.kind = .roundResult i) (d : List Byte) :
    HeldMapKept ((accessLanded s u).afterAccess u.kind u.access.role d) := by
  obtain ⟨_, _, inPlace, _⟩ := (heldMapKept_iff s).1 kept
  obtain ⟨live, _, place⟩ := (unitInPlace_iff s).1 inPlace u inHand
  have stands := (stateStands_some inHand).2 fun j c k => by rw [kind] at k; cases k
  have unit := landed_unit s u
  rw [kind] at place
  obtain ⟨left, w, hw, plain⟩ := place
  unfold rolesOf at left
  rw [List.suffix_cons_iff, List.suffix_nil] at left
  rcases left with h | h
  · rw [rolesLeft_eq, List.cons.injEq] at h
    obtain ⟨role, rest⟩ := h
    rw [rest, if_pos rfl, Option.map_eq_none_iff] at unit
    have written : ∀ j, inQueue (stateStands s) s.results.queue j = s.results.queue.tail.countP (completes j) := by
      intro j
      rw [stands]
      cases q : s.results.queue with
      | nil => rfl
      | cons x xs =>
        rw [q] at hw
        obtain rfl := Option.some.inj hw
        show (x :: xs).countP (completes j) = xs.countP (completes j)
        rw [List.countP_cons, plain j]
        rfl
    rw [role]
    rw [accessLanded_eq] at unit ⊢
    exact heldMapKept_dequeued kept live written rfl rfl rfl rfl rfl rfl rfl rfl (dequeue_owed s) rfl unit
  · cases h

end Sys2Proof.Proofs

/-! SUPPORT. The held map, where a frame is written or an offer given back, and where a unit of the header writer completes
(O57, second part; R77, R132, R136, R148, R156, R160). -/

namespace Sys2Proof.Proofs

open Sys2Proof.Machine Sys2Proof.Laws Sys2Proof.Safety

/-! ### Frames and give-backs (R132, R136) -/

/-- An index leaves the director, and is held no longer. -/
theorem heldMapKept_unheld {s v : State} {i : Nat} (kept : HeldMapKept s) (sched : v.sched = s.sched)
    (queue : v.results.queue = s.results.queue) (sweeper : v.sweeper = (s.unhold i).sweeper)
    (session : v.session = s.session) (header : v.header = s.header)
    (director : ∀ j, atDirector v.director j + (if j = i then 1 else 0) = atDirector s.director j)
    (stands : stateStands v = stateStands s) (inPlace : UnitInPlace v) : HeldMapKept v := by
  obtain ⟨⟨front, agrees, exact⟩, swept, _, resume⟩ := (heldMapKept_iff s).1 kept
  have lists : ∀ o, v.list o = s.list o := fun o => congrArg (fun q : Scheduler => q.lists.get o) sched
  have less : ∀ j, holders v front j + (if j = i then 1 else 0) = holders s front j := by
    intro j
    have gone := director j
    rw [holders_eq, holders_eq, sched, queue, inLists_of_ordinaries (s := s) (v := v) fun o => by rw [lists]]
    omega
  refine (heldMapKept_iff v).2 ⟨⟨front, fun st => ?_, ⟨?_, fun h => queue ▸ exact.ahead h, exact_unhold exact less
    (by rw [sweeper])⟩⟩, ?_, inPlace, ?_⟩
  · rw [stands]
    exact agrees (session ▸ st)
  · refine roundsInTable_keys exact.rounds (fun o => by rw [lists]) fun r hr inRound => ⟨r, ?_, rfl, rfl, inRound⟩
    rw [sched]
    exact hr
  · refine sweepInTable_of swept (by rw [session]) (by rw [session]) (by rw [sweeper]; rfl) (fun j free => ?_)
      fun x hx => ⟨x, by rw [sweeper] at hx; exact hx, rfl, rfl⟩
    rw [sweeper, unhold_bit, free, Bool.false_and]
  · unfold ResumeInOrder at resume ⊢
    rw [session, header, sweeper]
    exact resume

/-- Where the held map is exact, an index stands at most once with the director. -/
theorem atDirector_le {s : State} (kept : HeldMapKept s) (i : Nat) : atDirector s.director i ≤ 1 := by
  obtain ⟨⟨front, _, exact⟩, _⟩ := (heldMapKept_iff s).1 kept
  have one := exact.sound.once i
  rw [holders_eq] at one
  omega

/-- The accesses of a frame that is written into its slot (R132). -/
theorem heldMapKept_filled {s : State} {u : PortUnit} {i : Nat} {c : Half} (kept : HeldMapKept s)
    (inHand : s.port.unit = some u) (kind : u.kind = .filled i c) (d : List Byte) :
    HeldMapKept ((accessLanded s u).afterAccess u.kind u.access.role d) := by
  obtain ⟨_, _, inPlace, _⟩ := (heldMapKept_iff s).1 kept
  obtain ⟨live, awake, place⟩ := (unitInPlace_iff s).1 inPlace u inHand
  have other : ∀ j c, u.kind ≠ .completion j c := fun j c k => by rw [kind] at k; cases k
  have unit := landed_unit s u
  rw [kind] at place
  obtain ⟨left, slot⟩ := place
  have parts : ∀ role roles, rolesLeft u = role :: roles → u.access.role = role ∧ u.rest.map Access.role = roles := by
    intro role roles h
    rw [rolesLeft_eq, List.cons.injEq] at h
    exact h
  unfold rolesOf at left
  rw [List.suffix_cons_iff, List.suffix_cons_iff, List.suffix_cons_iff, List.suffix_cons_iff, List.suffix_cons_iff,
    List.suffix_nil] at left
  rcases left with h | h | h | h | h | h
  · obtain ⟨role, rest⟩ := parts _ _ h
    rw [role]
    exact heldMapKept_part kept inHand role (by rw [rest]; exact List.cons_ne_nil _ _)
  · obtain ⟨role, rest⟩ := parts _ _ h
    rw [role]
    exact heldMapKept_part kept inHand role (by rw [rest]; exact List.cons_ne_nil _ _)
  · obtain ⟨role, rest⟩ := parts _ _ h
    rw [rest, if_neg (List.cons_ne_nil _ _), kind] at unit
    obtain ⟨q, hq, own⟩ := slot (by rw [h]; rfl)
    have one : s.director.queue.countP (fun x => x.slot == some i) = 1 := by
      have some : 1 ≤ s.director.queue.countP (fun x => x.slot == some i) :=
        List.one_le_countP_iff.2 ⟨q, hq, beq_iff_eq.2 own⟩
      have most := atDirector_le kept i
      unfold atDirector at most
      omega
    have stands := ((stateStands_of_key unit).2 nofun).trans ((stateStands_some inHand).2 other).symm
    rw [role, kind]
    rw [accessLanded_eq] at unit stands ⊢
    unfold State.afterAccess State.stateWritten State.frameWritten
    dsimp only
    cases found : s.director.queue.find? (fun x => x.slot == some i) with
    | none => exact absurd (beq_iff_eq.2 own) (List.find?_eq_none.1 found q hq)
    | some x =>
      refine heldMapKept_unheld (i := i) kept rfl rfl rfl rfl rfl (fun j => ?_) stands
        (unitInPlace_key unit live awake ⟨⟨[.part, .part, .stateWrite], rfl⟩, fun k => by cases k⟩)
      have less := countP_remove (key := QueuedFrame.slot) one (some j)
      show _ + (s.director.queue.filter (fun x => x.slot != some i)).countP _ + _ = _
      simp only [beq_iff_eq, Option.some.injEq] at less
      unfold atDirector
      dsimp only
      rw [Nat.add_assoc]
      exact congrArg (_ + ·) less
  · obtain ⟨role, rest⟩ := parts _ _ h
    rw [role]
    exact heldMapKept_part kept inHand role (by rw [rest]; exact List.cons_ne_nil _ _)
  · obtain ⟨role, rest⟩ := parts _ _ h
    rw [role, kind]
    exact heldMapKept_countWritten (heldMapKept_unitDone kept inHand rest other).1 c
  · cases h

/-- The access of a give-back (R136). -/
theorem heldMapKept_giveBack {s : State} {u : PortUnit} {i : Nat} (kept : HeldMapKept s)
    (inHand : s.port.unit = some u) (kind : u.kind = .giveBack i) (d : List Byte) :
    HeldMapKept ((accessLanded s u).afterAccess u.kind u.access.role d) := by
  obtain ⟨_, _, inPlace, _⟩ := (heldMapKept_iff s).1 kept
  obtain ⟨_, _, place⟩ := (unitInPlace_iff s).1 inPlace u inHand
  rw [kind] at place
  obtain ⟨left, _, o, ho, own⟩ := place
  unfold rolesOf at left
  rw [List.suffix_cons_iff, List.suffix_nil] at left
  rcases left with h | h
  · rw [rolesLeft_eq, List.cons.injEq] at h
    obtain ⟨role, rest⟩ := h
    obtain ⟨landed, free⟩ := heldMapKept_unitDone kept inHand rest fun j c k => by rw [kind] at k; cases k
    have director : (accessLanded s u).director = s.director := by rw [accessLanded_eq]
    rw [role, kind]
    generalize accessLanded s u = r at landed free director
    rw [← director] at ho
    have one : r.director.receiveList.countP (fun x => x.index == i) = 1 := by
      have some : 1 ≤ r.director.receiveList.countP (fun x => x.index == i) :=
        List.one_le_countP_iff.2 ⟨o, ho, beq_iff_eq.2 own⟩
      have most := atDirector_le landed i
      unfold atDirector at most
      omega
    refine heldMapKept_unheld (i := i) landed rfl rfl rfl rfl rfl (fun j => ?_) rfl (unitInPlace_none free)
    have less := countP_remove (key := Offered.index) one j
    show (r.director.receiveList.filter (fun x => x.index != i)).countP _ + r.director.queue.countP _ + _ = _
    simp only [beq_iff_eq] at less
    unfold atDirector
    omega
  · cases h

/-! ### Units of the header writer (R148, R156, R157, R160, R162) -/

/-- While the header writer holds a unit, the resume processing owes nothing. -/
theorem owed_of_header {s : State} (resume : ResumeInOrder s) (some : s.header ≠ []) : s.session.resumeOwed = none := by
  by_contra owed
  exact some (resume.1 (.inr owed)).2

/-- With the port free and nothing owed, the header writer may let its unit go. -/
theorem heldMapKept_headerDone {s : State} (kept : HeldMapKept s) (free : s.port.unit = none)
    (awake : s.session.state ≠ .standby) (owed : s.session.resumeOwed = none) : HeldMapKept s.headerDone := by
  obtain ⟨_, swept, _⟩ := (heldMapKept_iff s).1 kept
  exact heldMapKept_free kept free rfl rfl rfl rfl rfl id swept (resumeInOrder_of awake owed)

/-- A header that START takes has at most 1024 envelopes (R51). -/
theorem startChecks_bounds {base : Word} {h : HeaderBytes} (good : firstBad (startChecks base h) = none) :
    h.half 0x004 ≤ 1024 ∧ h.half 0x006 ≤ 1024 := by
  have all : ∀ c ∈ startChecks base h, c.2 = true := by
    intro c hc
    have none := List.find?_eq_none.1 (Option.map_eq_none_iff.1 good) c hc
    rw [Bool.not_eq_true, Bool.not_eq_false'] at none
    exact none
  have n := of_decide_eq_true (all (0x004, _) (List.mem_append_left _ (List.mem_cons_of_mem _ List.mem_cons_self)))
  have f := of_decide_eq_true (all (0x006, _)
    (List.mem_append_left _ (List.mem_cons_of_mem _ (List.mem_cons_of_mem _ List.mem_cons_self))))
  omega

theorem heldMapKept_areaInvalid {s : State} (kept : HeldMapKept s) (free : s.port.unit = none)
    (awake : s.session.state ≠ .standby) (owed : s.session.resumeOwed = none) (c : Command) (o : Nat) :
    HeldMapKept (s.areaInvalid c o) := by
  obtain ⟨_, swept, _⟩ := (heldMapKept_iff s).1 kept
  exact heldMapKept_free kept free rfl rfl rfl rfl rfl id swept (resumeInOrder_of awake owed)

/-- The START reads have returned (R156, R157). -/
theorem heldMapKept_startRead {s : State} (kept : HeldMapKept s) (free : s.port.unit = none)
    (awake : s.session.state ≠ .standby) (owed : s.session.resumeOwed = none) (bs : List Byte) :
    HeldMapKept (s.startRead bs) := by
  unfold State.startRead
  split
  · exact heldMapKept_areaInvalid kept free awake owed _ _
  · rename_i good
    obtain ⟨n, f⟩ := startChecks_bounds good
    exact heldMapKept_empty rfl rfl rfl rfl rfl rfl rfl rfl free n f awake owed

/-- The START unit has completed: the first sweep starts (R157). -/
theorem heldMapKept_startUnit {s : State} (kept : HeldMapKept s) (free : s.port.unit = none)
    (live : s.session.state ≠ .faulted) (owed : s.session.resumeOwed = none) : HeldMapKept s.startUnitWritten := by
  obtain ⟨_, swept, _⟩ := (heldMapKept_iff s).1 kept
  refine heldMapKept_free kept free rfl rfl rfl rfl rfl (fun _ => live) (sweepInTable_started swept rfl rfl rfl)
    (resumeInOrder_of nofun owed)

/-- The RELOAD reads have returned (R160). -/
theorem heldMapKept_reloadRead {s : State} (kept : HeldMapKept s) (free : s.port.unit = none)
    (awake : s.session.state ≠ .standby) (owed : s.session.resumeOwed = none) (bs : List Byte) :
    HeldMapKept (s.reloadRead bs) := by
  rw [reloadRead_eq]
  split
  · exact heldMapKept_areaInvalid kept free awake owed _ _
  · obtain ⟨_, swept, _⟩ := (heldMapKept_iff s).1 kept
    have taken : HeldMapKept (settingsTaken s (settings (reloadHeader bs))) :=
      heldMapKept_free kept free rfl rfl rfl rfl rfl id swept (resumeInOrder_of awake owed)
    have handing := hands_handSettings s (settings (reloadHeader bs))
    have handed := heldMapKept_hands handing taken
    have session := same_session handing.fits.elsewhere
    have port := same_port handing.fits.elsewhere
    generalize s.handSettings (settings (reloadHeader bs)) = u at handed session port
    have finished : HeldMapKept (u.finishCommand .reload) := by
      obtain ⟨_, sweptU, _⟩ := (heldMapKept_iff u).1 handed
      refine heldMapKept_free handed (by rw [port]; exact free) rfl rfl rfl rfl rfl id sweptU (resumeInOrder_of ?_ ?_)
      · show u.session.state ≠ .standby
        rw [session]
        exact awake
      · show u.session.resumeOwed = none
        rw [session]
        exact owed
    exact heldMapKept_hands (hands_offsAtOnce _) finished

theorem completeCheck_eqs (s : State) :
    s.completeCheck.results.queue = s.results.queue ∧ s.completeCheck.port = s.port
      ∧ s.completeCheck.session = s.session ∧ s.completeCheck.header = s.header := by
  unfold State.completeCheck
  split
  · exact ⟨rfl, rfl, rfl, rfl⟩
  · exact ⟨rfl, rfl, rfl, rfl⟩

theorem heldMapKept_completeCheck {s : State} (kept : HeldMapKept s) : HeldMapKept s.completeCheck := by
  obtain ⟨sched, director, sweeper⟩ := completeCheck_same s
  obtain ⟨queue, port, session, header⟩ := completeCheck_eqs s
  exact heldMapKept_same kept sched director queue sweeper (by rw [port]) session header

/-- The final unit of STOP has completed (R162). -/
theorem heldMapKept_finishStop {s : State} (kept : HeldMapKept s) (free : s.port.unit = none)
    (live : s.session.state ≠ .faulted) (owed : s.session.resumeOwed = none) : HeldMapKept s.finishStop := by
  have checked := heldMapKept_completeCheck kept
  obtain ⟨_, port, session, _⟩ := completeCheck_eqs s
  unfold State.finishStop
  generalize s.completeCheck = u at checked port session
  obtain ⟨_, swept, _⟩ := (heldMapKept_iff u).1 checked
  refine heldMapKept_free checked (by rw [port]; exact free) rfl rfl rfl rfl rfl (fun _ => by rw [session]; exact live) swept
    (resumeInOrder_of nofun ?_)
  show u.session.resumeOwed = none
  rw [session]
  exact owed

/-- The accesses of a unit of the header writer. -/
theorem heldMapKept_header {s : State} {u : PortUnit} {h : HeaderUnit} (kept : HeldMapKept s)
    (inHand : s.port.unit = some u) (kind : u.kind = .header h) (d : List Byte) :
    HeldMapKept ((accessLanded s u).afterAccess u.kind u.access.role d) := by
  obtain ⟨_, _, inPlace, resume⟩ := (heldMapKept_iff s).1 kept
  obtain ⟨live, awake, place⟩ := (unitInPlace_iff s).1 inPlace u inHand
  rw [kind] at place
  obtain ⟨left, some⟩ := place
  have owed := owed_of_header resume some
  have session : (accessLanded s u).session = s.session := by rw [accessLanded_eq]
  have parts : ∀ role roles, rolesLeft u = role :: roles → u.access.role = role ∧ u.rest.map Access.role = roles := by
    intro role roles h
    rw [rolesLeft_eq, List.cons.injEq] at h
    exact h
  have part : ∀ role roles, rolesLeft u = .part :: role :: roles →
      HeldMapKept ((accessLanded s u).afterAccess u.kind u.access.role d) := by
    intro role roles h
    obtain ⟨own, rest⟩ := parts _ _ h
    rw [own]
    exact heldMapKept_part kept inHand own (by rw [rest]; exact List.cons_ne_nil _ _)
  have last : ∀ role, rolesLeft u = [role] → u.access.role = role ∧ HeldMapKept (accessLanded s u).headerDone
      ∧ (accessLanded s u).headerDone.port.unit = none ∧ (accessLanded s u).headerDone.session = s.session := by
    intro role h
    obtain ⟨own, rest⟩ := parts _ _ h
    obtain ⟨landed, free⟩ := heldMapKept_unitDone kept inHand rest fun j c k => by rw [kind] at k; cases k
    exact ⟨own, heldMapKept_headerDone landed free (by rw [session]; exact awake) (by rw [session]; exact owed), free,
      session⟩
  have faulted : ∀ v : State, v.session = s.session → v.session.state ≠ .faulted := fun v k => by rw [k]; exact live
  have standby : ∀ v : State, v.session = s.session → v.session.state ≠ .standby := fun v k => by rw [k]; exact awake
  have nothing : ∀ v : State, v.session = s.session → v.session.resumeOwed = none := fun v k => by rw [k]; exact owed
  unfold rolesOf at left
  cases h with
  | startReads =>
    dsimp only at left
    rw [List.suffix_cons_iff, List.suffix_cons_iff, List.suffix_nil] at left
    rcases left with k | k | k
    · exact part _ _ k
    · obtain ⟨own, done, free, same⟩ := last _ k
      rw [own]
      exact heldMapKept_startRead done free (standby _ same) (nothing _ same) d
    · cases k
  | reloadReads =>
    dsimp only at left
    rw [List.suffix_cons_iff, List.suffix_cons_iff, List.suffix_nil] at left
    rcases left with k | k | k
    · exact part _ _ k
    · obtain ⟨own, done, free, same⟩ := last _ k
      rw [own]
      exact heldMapKept_reloadRead done free (standby _ same) (nothing _ same) d
    · cases k
  | startUnit =>
    dsimp only at left
    rw [List.suffix_cons_iff, List.suffix_nil] at left
    rcases left with k | k
    · obtain ⟨own, done, free, same⟩ := last _ k
      rw [own]
      exact heldMapKept_startUnit done free (faulted _ same) (nothing _ same)
    · cases k
  | sweepEnd t c =>
    dsimp only at left
    rw [List.suffix_cons_iff, List.suffix_cons_iff, List.suffix_cons_iff, List.suffix_nil] at left
    rcases left with k | k | k | k
    · exact part _ _ k
    · exact part _ _ k
    · obtain ⟨own, done, _⟩ := last _ k
      rw [own]
      exact heldMapKept_completeCheck done
    · cases k
  | finalUnit t c =>
    dsimp only at left
    rw [List.suffix_cons_iff, List.suffix_cons_iff, List.suffix_cons_iff, List.suffix_nil] at left
    rcases left with k | k | k | k
    · exact part _ _ k
    · exact part _ _ k
    · obtain ⟨own, done, free, same⟩ := last _ k
      rw [own]
      exact heldMapKept_finishStop done free (faulted _ same) (nothing _ same)
    · cases k

end Sys2Proof.Proofs

/-! SUPPORT. The held map, where an access of the sweeper completes (O57, second part; R69 to R79, R108). -/

namespace Sys2Proof.Proofs

open Sys2Proof.Machine Sys2Proof.Laws Sys2Proof.Safety

/-! ### Between two accesses of the sweeper -/

/-- The invariant of the held map while the port is free and nothing is owed, but for the stage of the sweep. -/
structure Between (s : State) : Prop where
  held : Held false s
  free : s.port.unit = none
  awake : s.session.state ≠ .standby
  owed : s.session.resumeOwed = none
  n : s.session.n ≤ 1024
  f : s.session.f ≤ 1024
  cursor : s.sweeper.cursor < 1024
  index : ∀ w, s.sweeper.sweep = some w → w.index < 1024

/-- What the stage of a sweep says of its index (R70, R77). -/
def StageHolds (s : State) (w : Sweep) : Prop :=
  (w.stage ≠ .word0 → s.sweeper.held.getLsbD w.index = false)
    ∧ (w.stage = .envelope → w.index < s.session.f)
    ∧ (∀ c, w.stage = .claim (.send c) → w.index < s.session.f)
    ∧ ∀ c p, w.stage = .claim (.repeating c p) → w.index < s.session.f

theorem between_of_kept {s : State} (kept : HeldMapKept s) (free : s.port.unit = none)
    (live : s.session.state ≠ .faulted) (awake : s.session.state ≠ .standby) (owed : s.session.resumeOwed = none) :
    Between s := by
  obtain ⟨⟨front, agrees, held⟩, ⟨n, f, cursor, each⟩, _, _⟩ := (heldMapKept_iff s).1 kept
  obtain rfl := (agrees live).trans (stateStands_none free)
  refine ⟨held, free, awake, owed, n, f, cursor, fun w hw => ?_⟩
  obtain ⟨bound, _⟩ := each w hw
  exact bound

theorem stageHolds_of_kept {s : State} (kept : HeldMapKept s) {w : Sweep} (sweep : s.sweeper.sweep = some w) :
    StageHolds s w := by
  obtain ⟨_, ⟨_, _, _, each⟩, _⟩ := (heldMapKept_iff s).1 kept
  obtain ⟨_, stage⟩ := each w sweep
  exact stage

theorem Between.kept {s : State} (h : Between s) (stage : ∀ w, s.sweeper.sweep = some w → StageHolds s w) :
    HeldMapKept s :=
  (heldMapKept_iff s).2 ⟨⟨false, fun _ => (stateStands_none h.free).symm, h.held⟩,
    ⟨h.n, h.f, h.cursor, fun w hw => ⟨h.index w hw, stage w hw⟩⟩, unitInPlace_none h.free,
    resumeInOrder_of h.awake h.owed⟩

theorem held_conserves {front : Bool} {s v : State} (h : Held front s) (conserves : Conserves s v)
    (held : v.sweeper.held = s.sweeper.held) : Held front v := by
  obtain ⟨sound, same⟩ := conserves front h.sound
  refine ⟨sound.rounds, sound.ahead, fun i => ?_⟩
  rw [same, h.exact, held]

theorem Between.conserved {s v : State} (h : Between s) (conserves : Conserves s v)
    (held : v.sweeper.held = s.sweeper.held) (cursor : v.sweeper.cursor = s.sweeper.cursor)
    (sweep : v.sweeper.sweep = s.sweeper.sweep) (port : v.port = s.port) (session : v.session = s.session) :
    Between v where
  held := held_conserves h.held conserves held
  free := port ▸ h.free
  awake := session ▸ h.awake
  owed := session ▸ h.owed
  n := session ▸ h.n
  f := session ▸ h.f
  cursor := cursor ▸ h.cursor
  index := sweep ▸ h.index

theorem Between.hands {s v : State} (h : Between s) (hands : Hands s v) : Between v :=
  have sweeper := same_sweeper hands.fits.elsewhere
  h.conserved hands.conserves (by rw [sweeper]) (by rw [sweeper]) (by rw [sweeper]) (same_port hands.fits.elsewhere)
    (same_session hands.fits.elsewhere)

/-- The index in hand takes a place, and is held. -/
theorem Between.claimed {s v : State} {i : Nat} (h : Between s) (bound : i < 1024)
    (free : s.sweeper.held.getLsbD i = false) (rounds : RoundsInTable v)
    (more : ∀ j, holders v false j = holders s false j + if j = i then 1 else 0)
    (held : v.sweeper.held = (s.hold i).sweeper.held) (cursor : v.sweeper.cursor < 1024)
    (sweep : v.sweeper.sweep = s.sweeper.sweep) (port : v.port = s.port) (session : v.session = s.session) :
    Between v where
  held := ⟨rounds, nofun, exact_hold h.held bound free more held⟩
  free := port ▸ h.free
  awake := session ▸ h.awake
  owed := session ▸ h.owed
  n := session ▸ h.n
  f := session ▸ h.f
  cursor := cursor
  index := sweep ▸ h.index

/-! ### The next index (R69, R71) -/

theorem nextIndex_bound {n f start i k : Nat} (hn : n ≤ 1024) (hf : f ≤ 1024) (next : nextIndex n f start i = some k) :
    k < 1024 := by
  unfold nextIndex at next
  dsimp only at next
  by_cases sendSide : i < f
  · rw [if_pos sendSide] at next
    have bound : (if i + 1 = f then 0 else i + 1) < 1024 := by
      split
      · decide
      · omega
    generalize (if i + 1 = f then 0 else i + 1) = j at next bound
    by_cases start : j = start
    · rw [if_pos start] at next
      split at next
      · obtain rfl := Option.some.inj next
        omega
      · exact absurd next.symm (Option.some_ne_none k)
    · rw [if_neg start] at next
      exact Option.some.inj next ▸ bound
  · rw [if_neg sendSide] at next
    split at next
    · obtain rfl := Option.some.inj next
      omega
    · exact absurd next.symm (Option.some_ne_none k)

/-- After the handling of an index the sweeper stands before a word 0 read, or has no sweep. -/
theorem Between.handled {s : State} (h : Between s) : HeldMapKept s.indexHandled := by
  obtain ⟨y, header, eq, held, cursor, _, stage⟩ := indexHandled_eq s
  rw [eq]
  have bound : y.cursor < 1024 := cursor ▸ h.cursor
  have index : ∀ w, y.sweep = some w → w.index < 1024 := by
    intro w hw
    obtain ⟨_, at_cursor | ⟨u, _, next⟩⟩ := stage w hw
    · rw [at_cursor]
      exact h.cursor
    · exact nextIndex_bound h.n h.f next
  have after : Between ((s.setSweeper y).setHeader header) :=
    ⟨held_conserves h.held (conserves_same rfl rfl rfl rfl) held, h.free, h.awake, h.owed, h.n, h.f, bound, index⟩
  refine after.kept fun w hw => ?_
  obtain ⟨word0, _⟩ := stage w hw
  unfold StageHolds
  rw [word0]
  exact ⟨fun k => absurd rfl k, nofun, nofun, nofun⟩

/-- The sweep in hand waits for another access of an index that is free. -/
theorem Between.staged {s : State} {w : Sweep} {g : SweepStage} (h : Between s) (sweep : s.sweeper.sweep = some w)
    (free : s.sweeper.held.getLsbD w.index = false)
    (sendSide : (∀ m, g ≠ .claim (.receive m)) → g ≠ .word1 → w.index < s.session.f) : HeldMapKept (s.setStage g) := by
  have set : (s.setStage g).sweeper.sweep = some { w with stage := g } := by
    show s.sweeper.sweep.map (fun w => { w with stage := g }) = _
    rw [sweep]
    rfl
  have after : Between (s.setStage g) := by
    refine ⟨held_conserves h.held (conserves_same rfl rfl rfl rfl) rfl, h.free, h.awake, h.owed, h.n, h.f, h.cursor,
      fun x hx => ?_⟩
    rw [set] at hx
    cases hx
    exact h.index w sweep
  refine after.kept fun x hx => ?_
  rw [set] at hx
  cases hx
  exact ⟨fun _ => free, fun k => sendSide (fun m e => by cases k.symm.trans e) (fun e => by cases k.symm.trans e),
    fun c k => sendSide (fun m e => by cases k.symm.trans e) (fun e => by cases k.symm.trans e),
    fun c p k => sendSide (fun m e => by cases k.symm.trans e) (fun e => by cases k.symm.trans e)⟩

/-! ### Envelopes that are not claimed (R70, R72, R76) -/

/-- A free index joins the completion queue, and is held. -/
theorem Between.queued {s : State} {w : Sweep} (h : Between s) (sweep : s.sweeper.sweep = some w)
    (free : s.sweeper.held.getLsbD w.index = false) {x : Work} (own : ∀ j, completes j x = (w.index == j)) :
    Between ((s.setQueue (s.results.queue ++ [x])).hold w.index) := by
  refine h.claimed (h.index w sweep) free h.held.rounds (fun j => ?_) rfl h.cursor rfl rfl rfl
  have count : inQueue false (s.results.queue ++ [x]) j = inQueue false s.results.queue j + if w.index = j then 1 else 0 := by
    rw [inQueue_append (fun k => absurd k Bool.false_ne_true), own]
    simp only [beq_iff_eq]
  rw [holders_eq, holders_eq]
  show inLists s j + inTable s.sched.repeats j + atDirector s.director j + inQueue false (s.results.queue ++ [x]) j = _
  rw [count]
  simp only [eq_comm (a := j)]
  omega

theorem Between.rejected {s : State} {w : Sweep} (h : Between s) (sweep : s.sweeper.sweep = some w)
    (free : s.sweeper.held.getLsbD w.index = false) (c : ResultCode) : HeldMapKept (s.rejectIndex w.index c).indexHandled :=
  (h.queued sweep free (x := .rejected w.index c) fun _ => rfl).handled

theorem Between.cancelled {s : State} {w : Sweep} (h : Between s) (sweep : s.sweeper.sweep = some w)
    (free : s.sweeper.held.getLsbD w.index = false) : HeldMapKept (s.cancelIndex w.index).indexHandled :=
  (h.queued sweep free (x := .done w.index _) fun _ => rfl).handled

/-- A cancelled offer goes from the receive list to the completion queue (R133). -/
theorem conserves_receiveCancel (s : State) (i : Nat) : Conserves s (s.receiveCancel i) := by
  unfold State.receiveCancel
  split
  · rename_i offered
    refine conserves_of fun front sound => ⟨sound.rounds, fun _ => List.append_ne_nil_of_right_ne_nil _ (List.cons_ne_nil _ _),
      fun j => ?_⟩
    obtain ⟨o, ho, own⟩ := List.any_eq_true.1 offered
    have one : s.director.receiveList.countP (fun x => x.index == i) = 1 := by
      have some : 1 ≤ s.director.receiveList.countP (fun x => x.index == i) := List.one_le_countP_iff.2 ⟨o, ho, own⟩
      have most := sound.once i
      rw [holders_eq] at most
      unfold atDirector at most
      omega
    have less := countP_remove (key := Offered.index) one j
    have count : inQueue front (s.results.queue ++ [.rejected i .cancelled]) j
        = inQueue front s.results.queue j + if i = j then 1 else 0 := by
      rw [inQueue_append sound.ahead]
      show _ + (if (i == j) = true then 1 else 0) = _
      simp only [beq_iff_eq]
    rw [holders_eq, holders_eq]
    show inLists s j + inTable s.sched.repeats j + ((s.director.receiveList.filter (fun x => x.index != i)).countP _
      + s.director.queue.countP _) + inQueue front (s.results.queue ++ [.rejected i .cancelled]) j = _
    rw [count]
    simp only [beq_iff_eq, eq_comm (a := j)] at less
    unfold atDirector
    omega
  · exact conserves_refl s

theorem Between.cancelPassed {s : State} (h : Between s) (i : Nat) : Between (s.passCancel i) := by
  unfold State.passCancel
  split
  · exact h.hands (hands_sendCancel s i)
  · refine h.conserved (conserves_receiveCancel s i) ?_ ?_ ?_ ?_ ?_
    all_goals
      unfold State.receiveCancel
      split
      · rfl
      · rfl

/-! ### Decisions on the reads (R72 to R76) -/

theorem Between.word0Read {s : State} (h : Between s) (some : s.sweeper.sweep ≠ none) (bs : List Byte) :
    HeldMapKept (s.word0Read bs) := by
  unfold State.word0Read
  cases sweep : s.sweeper.sweep with
  | none => exact absurd sweep some
  | some w =>
    dsimp only
    cases held : s.isHeld w.index with
    | true =>
      rw [if_pos rfl]
      split
      · exact (h.cancelPassed w.index).handled
      · exact h.handled
    | false =>
      rw [if_neg Bool.false_ne_true]
      split
      · rename_i sendSide
        unfold State.sendWord0
        repeat' split
        · exact h.rejected sweep held _
        · exact h.cancelled sweep held
        · exact h.handled
        · exact h.staged sweep held fun _ _ => sendSide
        · exact h.handled
      · unfold State.receiveWord0
        repeat' split
        · exact h.rejected sweep held _
        · exact h.rejected sweep held _
        · exact h.staged sweep held fun _ k => absurd rfl k
        · exact h.handled

/-- A place is reserved for an envelope on the send side (R74). -/
theorem Between.reserved {s : State} {w : Sweep} (h : Between s) (sweep : s.sweeper.sweep = some w)
    (free : s.sweeper.held.getLsbD w.index = false) (sendSide : w.index < s.session.f) (t : Trunk) (p : Place) (c : Claim) :
    HeldMapKept (s.reserve t p c) := by
  have before : Between ((s.setOffDone t false).setSweeper { s.sweeper with reservation := some p }) :=
    h.conserved (conserves_same rfl rfl rfl rfl) rfl rfl rfl rfl rfl
  exact before.staged (w := w) sweep free fun _ _ => sendSide

theorem Between.envelopeRead {s : State} {w : Sweep} (h : Between s) (sweep : s.sweeper.sweep = some w)
    (free : s.sweeper.held.getLsbD w.index = false) (sendSide : w.index < s.session.f) (bs : List Byte) :
    HeldMapKept (s.envelopeRead bs) := by
  unfold State.envelopeRead State.roomTest
  rw [sweep]
  dsimp only
  repeat' split
  · exact h.handled
  · exact h.cancelled sweep free
  · exact h.handled
  · exact h.rejected sweep free _
  · exact h.reserved sweep free sendSide _ _ _
  · exact h.rejected sweep free _
  · exact h.reserved sweep free sendSide _ _ _
  · exact h.handled

theorem Between.word1Read {s : State} {w : Sweep} (h : Between s) (sweep : s.sweeper.sweep = some w)
    (free : s.sweeper.held.getLsbD w.index = false) (bs : List Byte) : HeldMapKept (s.word1Read bs) := by
  unfold State.word1Read
  rw [sweep]
  dsimp only
  repeat' split
  · exact h.staged sweep free fun k => absurd rfl (k _)
  · exact h.handled
  · exact h.rejected sweep free _

/-! ### Claims (R74, R75, R84, R108) -/

/-- An index that is not held stands in no list. -/
theorem Held.absent {front : Bool} {s : State} (h : Held front s) {i : Nat} (free : s.sweeper.held.getLsbD i = false)
    (o : Trunk) : i ∉ (s.list o).map Entry.index := by
  intro hmem
  have zero := h.exact i
  rw [free, holders_eq] at zero
  obtain ⟨e, he, rfl⟩ := List.mem_map.1 hmem
  cases round : e.round with
  | true =>
    obtain ⟨k, hk, kindex, _⟩ := (h.rounds o).2 e he round
    have table := inTable_of_mem hk
    rw [kindex] at table
    have none : (false : Bool).toNat = 0 := rfl
    omega
  | false =>
    have list : 1 ≤ ordinaries e.index (s.list o) :=
      List.one_le_countP_iff.2 ⟨e, he, by rw [round]; simp⟩
    have all : ordinaries e.index (s.list o) ≤ inLists s e.index := by
      unfold inLists
      match o with
      | 0 => omega
      | 1 => omega
      | 2 => omega
      | 3 => omega
    have none : (false : Bool).toNat = 0 := rfl
    omega

theorem nextCursor_bound {f i : Nat} (hf : f ≤ 1024) (sendSide : i < f) : nextCursor f i < 1024 := by
  unfold nextCursor
  split
  · decide
  · omega

theorem joinEntry_elsewhere (s : State) (i : Nat) (c : SendCopy) (round : Bool) :
    SameElsewhere (withJoined s i c round) (s.joinEntry i c round) := by
  rw [joinEntry_eq]
  split
  · exact (fits_finishEntry _ _ _ _ _).elsewhere
  · exact (fits_select _ _).elsewhere

/-- An envelope is claimed for one transmission (R84). -/
theorem Between.sendClaimed {s : State} {w : Sweep} (h : Between s) (sweep : s.sweeper.sweep = some w)
    (free : s.sweeper.held.getLsbD w.index = false) (sendSide : w.index < s.session.f) (c : SendCopy) :
    Between ((s.claimSend w.index).joinEntry w.index c false) := by
  have cursor := nextCursor_bound h.f sendSide
  have rounds : RoundsInTable (s.claimSend w.index) := h.held.rounds
  have new := h.held.absent free c.trunk
  have joined : Between (withJoined (s.claimSend w.index) w.index c false) := by
    refine h.claimed (h.index w sweep) free (roundsInTable_withJoined rounds new nofun) (fun j => ?_) rfl cursor rfl rfl rfl
    have count := inLists_withJoined (s.claimSend w.index) w.index c false j
    rw [holders_eq, count, holders_eq]
    simp only [Bool.not_false, Bool.true_and, beq_iff_eq, eq_comm (a := j)]
    show inLists s j + _ + inTable s.sched.repeats j + atDirector s.director j + inQueue false s.results.queue j = _
    omega
  have elsewhere := joinEntry_elsewhere (s.claimSend w.index) w.index c false
  have sweeper := same_sweeper elsewhere
  exact joined.conserved joinEntry_of (by rw [sweeper]) (by rw [sweeper]) (by rw [sweeper]) (same_port elsewhere)
    (same_session elsewhere)

/-- An envelope is claimed for repetition (R108). -/
theorem Between.repeatClaimed {s : State} {w : Sweep} (h : Between s) (sweep : s.sweeper.sweep = some w)
    (free : s.sweeper.held.getLsbD w.index = false) (sendSide : w.index < s.session.f) (c : SendCopy) (p : Nat) :
    Between ((s.claimSend w.index).joinRepeat w.index c p) := by
  have cursor := nextCursor_bound h.f sendSide
  have absent := h.held.absent free
  rw [joinRepeat_eq]
  generalize made : newRepeat w.index c p (s.claimSend w.index).now = r
  have index : r.index = w.index := by rw [← made]; rfl
  have joined : Between ((s.claimSend w.index).setRepeats ((s.claimSend w.index).sched.repeats ++ [r])) := by
    refine h.claimed (h.index w sweep) free ?_ (fun j => ?_) rfl cursor rfl rfl rfl
    · exact roundsInTable_keys h.held.rounds (fun o => rfl) fun k hk inRound =>
        ⟨k, List.mem_append_left _ hk, rfl, rfl, inRound⟩
    · rw [holders_eq, holders_eq]
      show inLists s j + inTable (s.sched.repeats ++ [r]) j + atDirector s.director j + inQueue false s.results.queue j = _
      unfold inTable
      rw [List.countP_append, List.countP_singleton, index]
      simp only [beq_iff_eq, eq_comm (a := j)]
      omega
  have mem : r ∈ ((s.claimSend w.index).setRepeats ((s.claimSend w.index).sched.repeats ++ [r])).sched.repeats :=
    List.mem_append_right _ List.mem_cons_self
  have lists : ∀ o, ((s.claimSend w.index).setRepeats ((s.claimSend w.index).sched.repeats ++ [r])).list o = s.list o :=
    fun _ => rfl
  split
  · refine joined.hands ⟨fits_endRepeat _ _ _ _ _, conserves_endRepeat ⟨r, mem, rfl⟩ (fun o e he _ same => ?_) _ _ _⟩
    rw [lists] at he
    exact absent o (index ▸ same ▸ List.mem_map_of_mem he)
  · exact joined.hands (hands_dueTimeOf mem)

/-- An offer is claimed (R75). -/
theorem Between.receiveClaimed {s : State} {w : Sweep} (h : Between s) (sweep : s.sweeper.sweep = some w)
    (free : s.sweeper.held.getLsbD w.index = false) (m : Byte) :
    Between (((s.hold w.index).setReceiveList
      ((s.hold w.index).director.receiveList ++ [{ index := w.index, mask := m }])).assignIfRunning) := by
  refine Between.hands (s := (s.hold w.index).setReceiveList _) ?_ (hands_assignIfRunning _)
  refine h.claimed (h.index w sweep) free h.held.rounds (fun j => ?_) rfl h.cursor rfl rfl rfl
  rw [holders_eq, holders_eq]
  show inLists s j + inTable s.sched.repeats j + ((s.director.receiveList ++ [Offered.mk w.index m]).countP _
    + s.director.queue.countP _) + inQueue false s.results.queue j = _
  rw [List.countP_append, List.countP_singleton]
  simp only [beq_iff_eq, eq_comm (a := j)]
  unfold atDirector
  omega

theorem Between.claimWritten {s : State} {w : Sweep} (h : Between s) (sweep : s.sweeper.sweep = some w)
    (holds : StageHolds s w) {c : Claim} (stage : w.stage = .claim c) : HeldMapKept s.claimWritten := by
  obtain ⟨free, _, send, repeating⟩ := holds
  rw [stage] at free
  replace free := free nofun
  unfold State.claimWritten
  rw [sweep]
  dsimp only
  rw [stage]
  cases c with
  | send copy => exact (h.sendClaimed sweep free (send copy stage) copy).handled
  | repeating copy p => exact (h.repeatClaimed sweep free (repeating copy p stage) copy p).handled
  | receive m => exact (h.receiveClaimed sweep free m).handled

/-! ### The accesses of the sweeper -/

theorem heldMapKept_sweeper {s : State} {u : PortUnit} (kept : HeldMapKept s)
    (inHand : s.port.unit = some u) (kind : u.kind = .sweeper) (d : List Byte) :
    HeldMapKept ((accessLanded s u).afterAccess u.kind u.access.role d) := by
  obtain ⟨_, _, inPlace, resume⟩ := (heldMapKept_iff s).1 kept
  obtain ⟨live, awake, place⟩ := (unitInPlace_iff s).1 inPlace u inHand
  rw [kind] at place
  obtain ⟨w, sweep, left⟩ := place
  rw [rolesLeft_eq, List.cons.injEq] at left
  obtain ⟨role, rest⟩ := left
  obtain ⟨landed, free⟩ := heldMapKept_unitDone kept inHand rest fun j c k => by rw [kind] at k; cases k
  have owed : s.session.resumeOwed = none := by
    by_contra owed
    have none := (resume.1 (.inr owed)).1
    rw [sweep] at none
    cases none
  have session : (accessLanded s u).session = s.session := by rw [accessLanded_eq]
  have sweeper : (accessLanded s u).sweeper = s.sweeper := by rw [accessLanded_eq]
  rw [← sweeper] at sweep
  rw [← session] at live awake owed
  generalize accessLanded s u = r at landed free sweep live awake owed
  have between := between_of_kept landed free live awake owed
  have holds := stageHolds_of_kept landed sweep
  rw [role]
  cases stage : w.stage with
  | word0 => exact between.word0Read (by rw [sweep]; exact nofun) d
  | envelope =>
    obtain ⟨bit, sendSide, _⟩ := holds
    exact between.envelopeRead sweep (bit (by rw [stage]; exact nofun)) (sendSide stage) d
  | word1 =>
    obtain ⟨bit, _⟩ := holds
    exact between.word1Read sweep (bit (by rw [stage]; exact nofun)) d
  | claim c => exact between.claimWritten sweep holds stage

end Sys2Proof.Proofs

/-! SUPPORT. Every move keeps the held map and the places (O57; R77, R82, R109, R168, R172, R176). -/

namespace Sys2Proof.Proofs

open Sys2Proof.Machine Sys2Proof.Laws Sys2Proof.Safety

/-! ### The completion of an access, and the grant -/

theorem heldMapKept_completed {s : State} {u : PortUnit} (kept : HeldMapKept s) (inHand : s.port.unit = some u) :
    HeldMapKept (s.completeAccess u) := by
  rw [completeAccess_eq]
  cases kind : u.kind with
  | completion i c => exact kind ▸ heldMapKept_completion kept inHand kind _
  | filled i c => exact kind ▸ heldMapKept_filled kept inHand kind _
  | roundResult i => exact kind ▸ heldMapKept_roundResult kept inHand kind _
  | giveBack i => exact kind ▸ heldMapKept_giveBack kept inHand kind _
  | header h => exact kind ▸ heldMapKept_header kept inHand kind _
  | sweeper => exact kind ▸ heldMapKept_sweeper kept inHand kind _

theorem heldMapKept_granted {s : State} {r : Request} (kept : HeldMapKept s) (free : s.portFree = true)
    (next : s.nextRequest = some r) : HeldMapKept (s.grant r) := by
  obtain ⟨unit, _, awake, live⟩ := portFree_iff.1 free
  obtain ⟨wf, asked⟩ := nextRequest_some next
  obtain ⟨c, v, eq⟩ := grant_eq s r
  have key : (s.grant r).port.unit.map unitKey = some (r.kind, r.first.role :: r.rest.map Access.role) := by
    rw [eq]
    rfl
  have stands : stateStands (s.grant r) = stateStands s := by
    rw [stateStands_none unit]
    obtain ⟨completion, other⟩ := stateStands_of_key key
    by_cases h : ∃ i c, r.kind = .completion i c
    · obtain ⟨i, c, k⟩ := h
      have roles : r.first.role :: r.rest.map Access.role = rolesOf r.kind := wf.roles (by rw [k]; exact nofun)
      rw [completion i c k, roles, k]
      rfl
    · exact other fun i c k => h ⟨i, c, k⟩
  have place : KindInPlace s r.kind (r.first.role :: r.rest.map Access.role) := by
    have all : r.kind ≠ .sweeper → r.first.role :: r.rest.map Access.role <:+ rolesOf r.kind := fun k => by
      have roles : r.first.role :: r.rest.map Access.role = rolesOf r.kind := wf.roles k
      rw [roles]
    cases asked with
    | completion i w front of kind =>
      rw [kind] at all ⊢
      exact ⟨all nofun, w, front, of⟩
    | round i x front kind =>
      rw [kind] at all ⊢
      exact ⟨all nofun, .round i x, front.symm, fun _ => rfl⟩
    | filled i q queued slot kind =>
      rw [kind] at all ⊢
      exact ⟨all nofun, fun _ => ⟨q, queued, slot⟩⟩
    | givenBack o stopping listed kind =>
      rw [kind] at all ⊢
      exact ⟨all nofun, stopping, o, listed, rfl⟩
    | header h front kind =>
      rw [kind] at all ⊢
      refine ⟨all nofun, fun none => ?_⟩
      rw [none] at front
      cases front
    | sweeper w sweep role single kind =>
      rw [kind, role, single]
      exact ⟨w, sweep, rfl⟩
  have inPlace : UnitInPlace (s.grant r) := by
    have state : (s.grant r).session = s.session := by rw [eq]
    refine unitInPlace_key key (by rw [state]; exact live) (by rw [state]; exact awake) ?_
    rw [eq]
    exact place
  rw [eq] at stands inPlace ⊢
  exact heldMapKept_port kept rfl rfl rfl rfl rfl rfl stands inPlace

/-! ### Commands and the ends of a state -/

/-- What the invariant looks at stays as it was. -/
theorem heldMapKept_alike {s v : State} (kept : HeldMapKept s) (sched : v.sched = s.sched)
    (director : v.director = s.director) (queue : v.results.queue = s.results.queue)
    (held : v.sweeper.held = s.sweeper.held) (cursor : v.sweeper.cursor = s.sweeper.cursor)
    (sweep : v.sweeper.sweep = s.sweeper.sweep) (unit : v.port.unit.map unitKey = s.port.unit.map unitKey)
    (state : v.session.state = s.session.state) (n : v.session.n = s.session.n) (f : v.session.f = s.session.f)
    (owed : v.session.resumeOwed = s.session.resumeOwed) (inProgress : v.session.inProgress = s.session.inProgress)
    (header : v.header = s.header) : HeldMapKept v := by
  obtain ⟨_, swept, inPlace, resume⟩ := (heldMapKept_iff s).1 kept
  refine heldMapKept_of kept sched director queue held unit (by rw [state]; exact id) (fun some => ?_)
    (fun _ => by rw [header]; exact id) (fun _ w hw => ⟨w, sweep ▸ hw, rfl⟩)
    (sweepInTable_of swept n f cursor (by rw [held]; exact fun _ => id) fun x hx => ⟨x, sweep ▸ hx, rfl, rfl⟩) ?_
  · obtain ⟨u, hu⟩ := Option.ne_none_iff_exists'.1 some
    obtain ⟨live, awake, _⟩ := (unitInPlace_iff s).1 inPlace u hu
    rw [state]
    exact ⟨live, awake, id⟩
  · unfold ResumeInOrder at resume ⊢
    rw [state, owed, inProgress, sweep, header]
    exact resume

/-- The session changes its state while nothing is owed; a sweep may be cut. -/
theorem heldMapKept_moved {s v : State} (kept : HeldMapKept s) (sched : v.sched = s.sched)
    (director : v.director = s.director) (queue : v.results.queue = s.results.queue)
    (sweeper : v.sweeper = s.sweeper ∨ v.sweeper = s.cutSweep.sweeper) (port : v.port.unit = s.port.unit)
    (n : v.session.n = s.session.n) (f : v.session.f = s.session.f) (header : s.header ≠ [] → v.header ≠ [])
    (liveBefore : s.session.state ≠ .faulted) (live : v.session.state ≠ .faulted) (awake : v.session.state ≠ .standby)
    (stopping : s.session.state = .stopping → v.session.state = .stopping) (owed : v.session.resumeOwed = none) :
    HeldMapKept v := by
  obtain ⟨_, swept, _⟩ := (heldMapKept_iff s).1 kept
  have held : v.sweeper.held = s.sweeper.held := by
    rcases sweeper with h | h
    · rw [h]
    · rw [h]
      rfl
  have cursor : v.sweeper.cursor = s.sweeper.cursor := by
    rcases sweeper with h | h
    · rw [h]
    · rw [h]
      rfl
  have sweeps : v.sweeper.sweep = s.sweeper.sweep
      ∨ v.sweeper.sweep = s.sweeper.sweep.map (fun w => { w with cut := true }) := by
    rcases sweeper with h | h
    · exact .inl (by rw [h])
    · exact .inr (by rw [h]; rfl)
  refine heldMapKept_of kept sched director queue held (by rw [port]) (fun _ => liveBefore)
    (fun _ => ⟨live, awake, stopping⟩) (fun _ => header) (fun _ w hw => ?_)
    (sweepInTable_of swept n f cursor (by rw [held]; exact fun _ => id) fun x hx => ?_) (resumeInOrder_of awake owed)
  · rcases sweeps with h | h
    · exact ⟨w, h.trans hw, rfl⟩
    · exact ⟨{ w with cut := true }, by rw [h, hw]; rfl, rfl⟩
  · rcases sweeps with h | h
    · exact ⟨x, h ▸ hx, rfl, rfl⟩
    · obtain ⟨w, hw, rfl⟩ := Option.map_eq_some_iff.1 (h ▸ hx)
      exact ⟨w, hw, rfl, rfl⟩

/-- A command that is accepted finds nothing owed. -/
theorem owed_of_idle {s : State} (kept : HeldMapKept s) (idle : s.commandBusy = false)
    (live : s.session.state ≠ .faulted) : s.session.resumeOwed = none := by
  obtain ⟨_, _, _, resume⟩ := (heldMapKept_iff s).1 kept
  exact resumeOwed_none resume live fun _ => not_resuming idle

theorem heldMapKept_startAccepted {s : State} (kept : HeldMapKept s) (idle : s.commandBusy = false)
    (st : s.session.state = .unset) : HeldMapKept s.acceptStart := by
  have live : s.session.state ≠ .faulted := by rw [st]; exact nofun
  have owed := owed_of_idle kept idle live
  have awake : s.session.state ≠ .standby := by rw [st]; exact nofun
  exact heldMapKept_moved kept rfl rfl rfl (.inl rfl) rfl rfl rfl
    (fun _ => List.append_ne_nil_of_right_ne_nil _ (List.cons_ne_nil _ _)) live live awake id owed

theorem heldMapKept_reloadAccepted {s : State} (kept : HeldMapKept s) (idle : s.commandBusy = false)
    (st : s.session.state = .running ∨ s.session.state = .paused) : HeldMapKept s.acceptReload := by
  have live : s.session.state ≠ .faulted := by rcases st with st | st <;> (rw [st]; exact nofun)
  have owed := owed_of_idle kept idle live
  have awake : s.session.state ≠ .standby := by rcases st with st | st <;> (rw [st]; exact nofun)
  exact heldMapKept_moved kept rfl rfl rfl (.inl rfl) rfl rfl rfl
    (fun _ => List.append_ne_nil_of_right_ne_nil _ (List.cons_ne_nil _ _)) live live awake id owed

theorem heldMapKept_pauseAccepted {s : State} (kept : HeldMapKept s) (idle : s.commandBusy = false)
    (st : s.session.state = .running) : HeldMapKept s.acceptPause := by
  have live : s.session.state ≠ .faulted := by rw [st]; exact nofun
  have owed := owed_of_idle kept idle live
  exact heldMapKept_moved kept rfl rfl rfl (.inl rfl) rfl rfl rfl id live nofun nofun
    (fun k => by rw [st] at k; cases k) owed

theorem heldMapKept_resumedFromPaused {s : State} (kept : HeldMapKept s) (idle : s.commandBusy = false)
    (st : s.session.state = .paused) : HeldMapKept s.resumeFromPaused := by
  have live : s.session.state ≠ .faulted := by rw [st]; exact nofun
  have owed := owed_of_idle kept idle live
  exact heldMapKept_moved kept rfl rfl rfl (.inl rfl) rfl rfl rfl id live nofun nofun
    (fun k => by rw [st] at k; cases k) owed

theorem heldMapKept_standbyAccepted {s : State} (kept : HeldMapKept s) (idle : s.commandBusy = false)
    (st : s.session.state = .running ∨ s.session.state = .paused) : HeldMapKept s.acceptStandby := by
  have live : s.session.state ≠ .faulted := by rcases st with st | st <;> (rw [st]; exact nofun)
  have owed := owed_of_idle kept idle live
  exact heldMapKept_moved kept rfl rfl rfl (.inr rfl) rfl rfl rfl id live nofun nofun
    (fun k => by rcases st with st | st <;> (rw [st] at k; cases k)) owed

/-- STOP begins; from STANDBY the entries up to the last marked one finish (R161, R173). -/
theorem heldMapKept_stopAccepted {s : State} (kept : HeldMapKept s) (idle : s.commandBusy = false)
    (st : s.session.state = .running ∨ s.session.state = .paused ∨ s.session.state = .standby) :
    HeldMapKept s.acceptStop := by
  have live : s.session.state ≠ .faulted := by rcases st with st | st | st <;> (rw [st]; exact nofun)
  have owed := owed_of_idle kept idle live
  have entered : HeldMapKept (((s.enterSession .stopping).beginCommand .stop).dropWake).cutSweep :=
    heldMapKept_moved kept rfl rfl rfl (.inr rfl) rfl rfl rfl id live nofun nofun (fun _ => rfl)
      owed
  have begun : HeldMapKept (stopBegun s) :=
    heldMapKept_hands (hands_setSched (x := { s.sched with offOwed := Four.all false }) rfl rfl) entered
  have closed := heldMapKept_hands (hands_closeQueue (stopBegun s)) begun
  have lists := closed_list s
  rw [acceptStop_eq]
  generalize (stopBegun s).closeQueue = c at closed lists
  refine heldMapKept_hands (hands_stopClearTrunks _) ?_
  split
  · exact heldMapKept_hands ⟨fits_finishAtStop _ _, conserves_stopOrder lists⟩ closed
  · exact closed

/-- RESUME from STANDBY: nothing is swept and the header writer holds nothing until its results are written (R171,
R172). -/
theorem heldMapKept_resumedFromStandby {s : State} (kept : HeldMapKept s) (idle : s.commandBusy = false)
    (st : s.session.state = .standby) : HeldMapKept s.resumeFromStandby := by
  obtain ⟨_, _, inPlace, resume⟩ := (heldMapKept_iff s).1 kept
  have live : s.session.state ≠ .faulted := by rw [st]; exact nofun
  have owed := owed_of_idle kept idle live
  obtain ⟨sweep, header⟩ := resume.1 (.inl st)
  have free : s.port.unit = none := by
    cases unit : s.port.unit with
    | none => rfl
    | some u =>
      obtain ⟨_, awake, _⟩ := (unitInPlace_iff s).1 inPlace u unit
      exact absurd st awake
  have begun : HeldMapKept (resumeBegun s) :=
    heldMapKept_moved kept rfl rfl rfl (.inl rfl) rfl rfl rfl id live nofun nofun
      (fun k => by rw [st] at k; cases k) owed
  have marked : Hands (resumeBegun s) (finishMarked s.marked (resumeBegun s)).owedTrunksOff :=
    hands_trans ⟨fits_finishMarked _ _, conserves_marked fun _ => rfl⟩ (hands_owedTrunksOff _)
  have left := heldMapKept_hands marked begun
  have elsewhere := marked.fits.elsewhere
  have session := same_session elsewhere
  have port := same_port elsewhere
  have sweeper := same_sweeper elsewhere
  have sameHeader := same_header elsewhere
  rw [resumeFromStandby_eq]
  generalize (finishMarked s.marked (resumeBegun s)).owedTrunksOff = u at left session port sweeper sameHeader
  obtain ⟨_, swept, _⟩ := (heldMapKept_iff u).1 left
  have state : u.session.state = .running := by rw [session]; rfl
  refine heldMapKept_free (v := u.oweResults) left (by rw [port]; exact free) rfl rfl rfl rfl rfl
    id swept ⟨fun _ => ?_, fun _ => .inr ⟨state, ?_⟩⟩
  · exact ⟨(congrArg Sweeper.sweep sweeper).trans sweep, sameHeader.trans header⟩
  · show u.session.inProgress = some .resume
    rw [session]
    rfl

theorem heldMapKept_stoppingEnded {s : State} (kept : HeldMapKept s) (guard : s.stopped = true) :
    HeldMapKept s.askFinal := by
  have st : s.session.state = .stopping := by
    unfold State.stopped at guard
    simp only [Bool.and_eq_true, beq_iff_eq] at guard
    tauto
  obtain ⟨_, _, _, resume⟩ := (heldMapKept_iff s).1 kept
  have live : s.session.state ≠ .faulted := by rw [st]; exact nofun
  have awake : s.session.state ≠ .standby := by rw [st]; exact nofun
  have owed := resumeOwed_none resume live fun k => by rw [st] at k; cases k
  exact heldMapKept_moved kept rfl rfl rfl (.inl rfl) rfl rfl rfl
    (fun _ => List.append_ne_nil_of_right_ne_nil _ (List.cons_ne_nil _ _)) live live awake id owed

/-- SETTLING ends with no sweep, no unit at the port and nothing for the header writer (R168). -/
theorem heldMapKept_settlingEnded {s : State} (kept : HeldMapKept s) (guard : s.settled = true) :
    HeldMapKept s.enterStandby := by
  have parts : s.session.state = .settling ∧ s.sweeper.sweep = none ∧ s.header = [] ∧ s.port.unit = none := by
    unfold State.settled State.sweeperBusy at guard
    simp only [Bool.and_eq_true, beq_iff_eq, Bool.not_eq_true', Option.isSome_eq_false_iff, Option.isNone_iff_eq_none,
      List.isEmpty_iff] at guard
    tauto
  obtain ⟨st, sweep, header, free⟩ := parts
  obtain ⟨_, swept, _, resume⟩ := (heldMapKept_iff s).1 kept
  have owed := resumeOwed_none resume (by rw [st]; exact nofun) fun k => by rw [st] at k; cases k
  have checked := heldMapKept_completeCheck kept
  obtain ⟨_, _, sweeper⟩ := completeCheck_same s
  obtain ⟨_, port, session, sameHeader⟩ := completeCheck_eqs s
  rw [enterStandby_eq]
  generalize s.completeCheck = u at checked sweeper port session sameHeader
  obtain ⟨_, sweptU, _⟩ := (heldMapKept_iff u).1 checked
  refine heldMapKept_free checked (by rw [port]; exact free) rfl rfl rfl rfl rfl
    (fun _ k => by rw [session, st] at k; cases k) sweptU ⟨fun _ => ?_, fun k => ?_⟩
  · exact ⟨(congrArg Sweeper.sweep sweeper).trans sweep, sameHeader.trans header⟩
  · exact absurd (show u.session.resumeOwed = none by rw [session]; exact owed) k

/-- Step 1 of the resume processing owes nothing more: slots are assigned, and a sweep starts (R172). -/
theorem heldMapKept_resumeEnded {s : State} (kept : HeldMapKept s) (guard : s.resultsResumed = true) :
    HeldMapKept s.endResume := by
  have parts : s.session.state = .running ∧ s.session.resumeOwed = some 0 := by
    unfold State.resultsResumed at guard
    simpa only [Bool.and_eq_true, beq_iff_eq] using guard
  obtain ⟨st, owed⟩ := parts
  obtain ⟨_, swept, _, resume⟩ := (heldMapKept_iff s).1 kept
  obtain ⟨sweep, header⟩ := resume.1 (.inr (by rw [owed]; exact nofun))
  have live : s.session.state ≠ .faulted := by rw [st]; exact nofun
  have awake : s.session.state ≠ .standby := by rw [st]; exact nofun
  have paid : HeldMapKept (s.setSession { s.session with resumeOwed := none }) :=
    heldMapKept_moved kept rfl rfl rfl (.inl rfl) rfl rfl rfl id live live awake id rfl
  have hands : Hands (s.setSession { s.session with resumeOwed := none })
      (s.setSession { s.session with resumeOwed := none }).assignSlots :=
    ⟨fits_assignSlots (by rw [setSession_session, st]; exact nofun), conserves_assignSlots _⟩
  have assigned := heldMapKept_hands hands paid
  have elsewhere := hands.fits.elsewhere
  have session := same_session elsewhere
  have sweeper := same_sweeper elsewhere
  unfold State.endResume
  generalize (s.setSession { s.session with resumeOwed := none }).assignSlots = u at assigned session sweeper
  obtain ⟨_, sweptU, _⟩ := (heldMapKept_iff u).1 assigned
  have state : u.session.state = .running := by rw [session]; exact st
  have nothing : u.session.resumeOwed = none := by rw [session]; rfl
  have idle : u.sweeper.sweep = none := by rw [sweeper]; exact sweep
  have running : u.session.state ≠ .faulted ∧ u.session.state ≠ .standby := by
    rw [state]
    exact ⟨nofun, nofun⟩
  exact heldMapKept_of (v := u.startSweep.finishCommand .resume) assigned rfl rfl rfl rfl rfl id
    (fun _ => ⟨running.1, running.2, id⟩) (fun _ => id) (fun _ w hw => by rw [idle] at hw; cases hw)
    (sweepInTable_started sweptU rfl rfl rfl) (resumeInOrder_of running.2 nothing)

/-! ### Sweeps that are asked for, and faults -/

theorem heldMapKept_sweepAsked {s : State} (kept : HeldMapKept s) (guard : s.sweeping = true) :
    HeldMapKept s.askSweep := by
  have parts : (s.session.state = .running ∨ s.session.state = .paused) ∧ s.session.resumeOwed = none := by
    unfold State.sweeping at guard
    simpa only [Bool.and_eq_true, Bool.or_eq_true, beq_iff_eq] using guard
  obtain ⟨st, owed⟩ := parts
  have live : s.session.state ≠ .faulted := by rcases st with st | st <;> (rw [st]; exact nofun)
  have awake : s.session.state ≠ .standby := by rcases st with st | st <;> (rw [st]; exact nofun)
  obtain ⟨_, swept, _⟩ := (heldMapKept_iff s).1 kept
  unfold State.askSweep
  split
  · exact heldMapKept_alike kept rfl rfl rfl rfl rfl rfl rfl rfl rfl rfl rfl rfl rfl
  · rename_i idle
    rw [Bool.not_eq_true, Option.isSome_eq_false_iff, Option.isNone_iff_eq_none] at idle
    exact heldMapKept_of kept rfl rfl rfl rfl rfl id (fun _ => ⟨live, awake, id⟩) (fun _ => id)
      (fun _ w hw => by rw [idle] at hw; cases hw) (sweepInTable_started swept rfl rfl rfl) (resumeInOrder_of awake owed)

/-- In FAULTED the port holds no unit, and the map stays as the fault found it (R179). -/
theorem heldMapKept_faulted {s : State} (kept : HeldMapKept s) (u : PortUnit) (k : FaultKind) :
    HeldMapKept (s.enterFaulted u k) := by
  obtain ⟨⟨front, _, held⟩, swept, _, resume⟩ := (heldMapKept_iff s).1 kept
  rw [enterFaulted_eq]
  refine (heldMapKept_iff _).2 ⟨⟨front, fun live => absurd rfl live, held_same held rfl rfl rfl rfl⟩, swept, trivial,
    fun h => ?_, fun _ => .inl rfl⟩
  exact resume.1 (h.elim (fun st => nomatch st) .inr)

/-! ### Every move -/

/-- Every move keeps the held map what the collections hold. -/
theorem move_keepsHeldMap {s v : State} (kept : HeldMapKept s) (m : Move s v) : HeldMapKept v := by
  have event : ∀ {v : State}, Hands s v → HeldMapKept v := fun h => heldMapKept_hands h kept
  cases m with
  | stay => exact kept
  | refused => exact heldMapKept_same kept rfl rfl rfl rfl rfl rfl rfl
  | startAccepted idle st => exact heldMapKept_startAccepted kept idle st
  | pauseAccepted idle st => exact heldMapKept_pauseAccepted kept idle st
  | resumedFromPaused idle st => exact heldMapKept_resumedFromPaused kept idle st
  | resumedFromStandby idle st => exact heldMapKept_resumedFromStandby kept idle st
  | standbyAccepted idle st => exact heldMapKept_standbyAccepted kept idle st
  | stopAccepted idle st => exact heldMapKept_stopAccepted kept idle st
  | reloadAccepted idle st => exact heldMapKept_reloadAccepted kept idle st
  | reset =>
    exact heldMapKept_empty rfl rfl rfl rfl rfl rfl rfl rfl (by simp) (Nat.zero_le _) (Nat.zero_le _) nofun rfl
  | poweredOn =>
    exact heldMapKept_empty rfl rfl rfl rfl rfl rfl rfl rfl rfl (Nat.zero_le _) (Nat.zero_le _) nofun rfl
  | sweepAsked guard => exact heldMapKept_sweepAsked kept guard
  | registersWritten => exact heldMapKept_same kept rfl rfl rfl rfl rfl rfl rfl
  | synced =>
    have opened : HeldMapKept s.openSyncWindow :=
      heldMapKept_alike kept rfl rfl rfl rfl rfl rfl rfl rfl rfl rfl rfl rfl rfl
    exact heldMapKept_hands (hands_trans (hands_trans (hands_trans (hands_selectInWindow _ 0) (hands_selectInWindow _ 1))
      (hands_selectInWindow _ 2)) (hands_selectInWindow _ 3)) opened
  | windowClosed => exact heldMapKept_alike kept rfl rfl rfl rfl rfl rfl rfl rfl rfl rfl rfl rfl rfl
  | granted r free next => exact heldMapKept_granted kept free next
  | completed u inHand => exact heldMapKept_completed kept inHand
  | abandonedEnded =>
    obtain ⟨n, k, p, h⟩ := endAbandoned_eq s
    rw [h]
    exact heldMapKept_same kept rfl rfl rfl rfl rfl rfl rfl
  | faulted u k => exact heldMapKept_faulted kept u k
  | settlingEnded guard => exact heldMapKept_settlingEnded kept guard
  | resumeEnded guard => exact heldMapKept_resumeEnded kept guard
  | stoppingEnded guard => exact heldMapKept_stoppingEnded kept guard
  | holdExpired t => exact event (hands_holdExpires s t)
  | edgeTaken t l => exact event (hands_takeEdge s t l)
  | replySettled t o => exact event (hands_settleReply s t o)
  | replyClosed t => exact event (hands_updateEngine s t _)
  | shapeTimed t => exact event (hands_shapeInSending s t)
  | elementEnded t => exact event (hands_updateEngine s t _)
  | leadMarked t => exact event (hands_updateEngine s t _)
  | malformedTimed t => exact event (hands_abandonFrame s t)
  | answerBegun t => exact event (hands_updateEngine s t _)
  | answerEnded t => exact event (hands_updateEngine s t _)
  | foreignEnded t => exact event (hands_foreignFrameEnds s t)
  | stuck t => exact event (hands_stuckEvent s t)
  | recovered t => exact event (hands_recoverTrunk s t)
  | timingTaken t => exact event (hands_updateEngine s t _)
  | trunkOff t => exact event (hands_trunkGoesOff s t)
  | restEnded i t => exact event (hands_endRest s t i)
  | expired i t x found => exact event (hands_expireEntry (pendingEntry_mem found))
  | dueTime i r found => exact event (hands_dueTimeOf (List.mem_of_find?_eq_some found))
  | roundJoined t => exact event (hands_joinRound s t)

/-! ### One microsecond, and the obligation -/

theorem tick_keepsPlaces {s : State} (within : WithinPlaces s) : WithinPlaces s.tick := by
  obtain ⟨d, m, n, o, h⟩ := tick_eq s
  rw [h]
  exact withinPlaces_same within rfl rfl rfl rfl

theorem tick_keepsHeldMap {s : State} (kept : HeldMapKept s) : HeldMapKept s.tick := by
  have unit : ∀ u : Option PortUnit, (u.map (fun u => { u with timer := u.timer + 1 })).map unitKey = u.map unitKey := by
    intro u
    cases u with
    | none => rfl
    | some u => rfl
  obtain ⟨d, m, n, o, h⟩ := tick_eq s
  rw [h]
  exact heldMapKept_alike kept rfl rfl rfl rfl rfl rfl (unit _) rfl rfl rfl rfl rfl rfl

/-- Settles O57: each move keeps every collection within its places, and takes an index from one place to one other at
most, with its bit of the held map set or cleared as it enters the first or leaves the last. -/
theorem stepKeepsPlaces : Obligations.StepKeepsPlaces :=
  ⟨fun s h => step_keeps (P := WithinPlaces) (fun _ _ k m => move_keepsPlaces k m) (fun _ _ _ k => k) (fun _ _ _ k => k)
      (fun _ _ _ k => k) (fun _ k => tick_keepsPlaces k) s h,
    fun s h => step_keeps (P := HeldMapKept) (fun _ _ k m => move_keepsHeldMap k m) (fun _ _ _ k => k) (fun _ _ _ k => k)
      (fun _ _ _ k => k) (fun _ k => tick_keepsHeldMap k) s h⟩

end Sys2Proof.Proofs
